-- ==== Sys2Proof/Word.lean ====
section
/-! DEFINITION. The data sizes of the CPU (spec/20_memory.md R51: byte, word, longword) and its register numbers
(spec/30_encoding.md R81). -/
namespace Sys2Proof

/-- A longword: 32 bits, the size of every register and of an address (R20, R50). -/
abbrev Word := BitVec 32

/-- A word of memory or an instruction code: 16 bits (R51, R80). -/
abbrev Half := BitVec 16

/-- A byte: 8 bits (R51). -/
abbrev Byte := BitVec 8

/-- The number of a general register, R0 to R15 (R21). -/
abbrev Reg := Fin 16

end Sys2Proof
end

