-- ==== Sys2Proof/Config.lean ====
section
/-! DEFINITION. What an implementation fixes (spec/00_scope.md R7) and the free values of the model.  The
parameters are plain data that State carries in one field and that no step changes (log 22); the free values are
constants without a body, so that nothing can be proved of them. -/
namespace Sys2Proof

/-- The two CPUs of the manual (R5). -/
inductive Cpu where
  | sh1
  | sh2
  deriving DecidableEq, Repr

/-- The kinds of access that `mem_admits` and an address error distinguish (R71, R363). -/
inductive AccessKind where
  | fetch
  | read
  | write
  deriving DecidableEq, Repr

/-- A range of addresses, `base` up to but not including `base + size`. -/
structure Region where
  base : Nat
  size : Nat
  deriving DecidableEq, Repr

/-- Accesses the platform refuses (R71): those of this kind and width that start in the region. -/
structure RefusedAccess where
  region : Region
  kind   : AccessKind
  bytes  : Nat
  deriving DecidableEq, Repr

/-- Where a reset takes PC and R15 from (R402, D10): the longwords of the vector table, which is the default, or the
two values `reset_pc` and `reset_sp` that the launch supplies. -/
inductive ResetSource where
  | table
  | values (pc sp : Word)
  deriving DecidableEq, Repr

/-- The parameters of the launch (R7).  `refused` holds `mem_admits` as the list of what it does not admit,
`leRegions` the predicate `le_region`. -/
structure Config where
  /-- SH-1 or SH-2 (R5). -/
  cpu : Cpu
  /-- `reset_pc` and `reset_sp` of a power-on reset (R402). -/
  powerOnReset : ResetSource
  /-- `reset_pc` and `reset_sp` of a manual reset (R403). -/
  manualReset : ResetSource
  /-- Vector number of the general illegal instruction exception (R367). -/
  vecIllegal : BitVec 8
  /-- Vector number of the slot illegal instruction exception (R367). -/
  vecSlotIllegal : BitVec 8
  /-- Vector number of the CPU address error exception (R367). -/
  vecCpuAddrErr : BitVec 8
  /-- Vector number an NMI request carries (R367, R373). -/
  vecNmi : BitVec 8
  /-- Vector number a user break request carries (R367, R373). -/
  vecUserBreak : BitVec 8
  /-- Is the instruction after a BF/S or BT/S that does not branch checked as a slot instruction (R288, D21)? -/
  bcsSlotCheckAlways : Bool
  /-- Does MAC.W with S = 1 set MACH bit 0 on overflow on the SH-2 (R223, D24)? -/
  macwSatFlagSh2 : Bool
  /-- The little-endian data regions (R57, D3). -/
  leRegions : List Region
  /-- The accesses the platform refuses (R71, D5). -/
  refused : List RefusedAccess
  deriving DecidableEq, Repr

/-- The open parameter `bcs_slot_check_always` at reset: no value is chosen (D21, U9, log 16). -/
opaque Config.bcsSlotCheckAlwaysAtReset : Bool

/-- The open parameter `macw_sat_flag_sh2` at reset: no value is chosen (D24, U8, log 17). -/
opaque Config.macwSatFlagSh2AtReset : Bool

/-- Free value: is a request accepted at this boundary, when `k` acceptances have been made and since the last one `n`
boundaries with an acceptable request passed over (R375, D15, log 8)? -/
opaque Config.acceptHere (k n : Nat) : Bool

/-- Free value: for how many boundaries in a row a request can stay acceptable and be passed over before the `k`-th
acceptance is due (R375, D15, log 8).  It is finite, which is the weak fairness the spec promises, and nothing else is
known of it. -/
opaque Config.acceptDelay (k : Nat) : Nat

/-- Free value: does the platform withdraw the request that the `k`-th acceptance reported to it (R373, log 9)? -/
opaque Config.requestWithdrawn : Nat → Bool

end Sys2Proof
end

