-- ==== Sys2Proof/Machine/Memory.lean ====
section
/-! DEFINITION. Memory: one address space of 2^32 bytes (spec/20_memory.md R50), held as the list of the bytes that
differ from what an unlisted address reads as; byte order (R52, R57); alignment (R53); what the platform admits
(R71). -/
namespace Sys2Proof.Machine

/-- The bytes of memory that are listed, addresses strictly rising. -/
abbrev Memory := List Host.Cell

/-- What an unlisted address reads as: the spec gives no content of memory at reset (R400).
DESIGN CHOICE (unsafe), log 2. -/
def Memory.unlisted : Byte := 0

/-- The byte at an address. -/
def Memory.get : Memory → Nat → Byte
  | [], _ => Memory.unlisted
  | (k, v) :: rest, a => if k = a then v else Memory.get rest a

/-- The memory without an entry for the address. -/
def Memory.drop : Memory → Nat → Memory
  | [], _ => []
  | (k, v) :: rest, a => if k = a then Memory.drop rest a else (k, v) :: Memory.drop rest a

/-- An entry put in at its place in the order of addresses. -/
def Memory.place : Memory → Nat → Byte → Memory
  | [], a, v => [(a, v)]
  | (k, x) :: rest, a, v => if a < k then (a, v) :: (k, x) :: rest else (k, x) :: Memory.place rest a v

/-- A byte written.  Writing what an unlisted address reads as removes the entry. -/
def Memory.set (m : Memory) (a : Nat) (v : Byte) : Memory :=
  if v = Memory.unlisted then m.drop a else (m.drop a).place a v

/-- The entries lie in the address space at or above `lo`, rise strictly, and none equals what an unlisted address
reads as. -/
def Memory.wfFrom : Nat → Memory → Bool
  | _, [] => true
  | lo, (k, v) :: rest => lo ≤ k && k < 2 ^ 32 && v != Memory.unlisted && Memory.wfFrom (k + 1) rest

/-- The canonical form: equal memories are equal lists. -/
def Memory.wf (m : Memory) : Bool := Memory.wfFrom 0 m

/-- The byte at a 32-bit address (R50). -/
def Memory.byte (m : Memory) (a : Word) : Byte := m.get a.toNat

/-- A byte written at a 32-bit address. -/
def Memory.setByte (m : Memory) (a : Word) (v : Byte) : Memory := m.set a.toNat v

/-- The word at an address: big-endian (R52), or in a little-endian region the reversed order (R57). -/
def Memory.half (m : Memory) (little : Bool) (a : Word) : Half :=
  match little with
  | false => m.byte a ++ m.byte (a + 1)
  | true => m.byte (a + 1) ++ m.byte a

/-- The longword at an address (R52, R57). -/
def Memory.long (m : Memory) (little : Bool) (a : Word) : Word :=
  match little with
  | false => m.byte a ++ m.byte (a + 1) ++ m.byte (a + 2) ++ m.byte (a + 3)
  | true => m.byte (a + 3) ++ m.byte (a + 2) ++ m.byte (a + 1) ++ m.byte a

/-- A word written (R56). -/
def Memory.setHalf (m : Memory) (little : Bool) (a : Word) (v : Half) : Memory :=
  match little with
  | false => (m.setByte a (v.extractLsb' 8 8)).setByte (a + 1) (v.extractLsb' 0 8)
  | true => (m.setByte a (v.extractLsb' 0 8)).setByte (a + 1) (v.extractLsb' 8 8)

/-- A longword written (R56). -/
def Memory.setLong (m : Memory) (little : Bool) (a : Word) (v : Word) : Memory :=
  match little with
  | false =>
    (((m.setByte a (v.extractLsb' 24 8)).setByte (a + 1) (v.extractLsb' 16 8)).setByte (a + 2)
      (v.extractLsb' 8 8)).setByte (a + 3) (v.extractLsb' 0 8)
  | true =>
    (((m.setByte a (v.extractLsb' 0 8)).setByte (a + 1) (v.extractLsb' 8 8)).setByte (a + 2)
      (v.extractLsb' 16 8)).setByte (a + 3) (v.extractLsb' 24 8)

/-- `aligned(addr, 2)` (R53). -/
def alignedHalf (a : Word) : Bool := a.toNat % 2 == 0

/-- `aligned(addr, 4)` (R53). -/
def alignedLong (a : Word) : Bool := a.toNat % 4 == 0

/-- The addresses of a region. -/
def regionContains (r : Region) (a : Word) : Bool := r.base ≤ a.toNat && a.toNat < r.base + r.size

/-- `le_region(addr)` (R57). -/
def littleEndian (c : Config) (a : Word) : Bool := c.leRegions.any fun r => regionContains r a

/-- `mem_admits(addr, n, kind)` (R71). -/
def memAdmits (c : Config) (a : Word) (bytes : Nat) (kind : AccessKind) : Bool :=
  !c.refused.any fun e => e.kind == kind && e.bytes == bytes && regionContains e.region a

end Sys2Proof.Machine
end

