-- ==== Sys2Proof/Machine/State.lean ====
section
/-! DEFINITION. The state of the machine: everything the spec gives the CPU (spec/10_state.md R20 to R42), the inputs
the platform offers it (spec/60_exceptions.md R373, R399), the parameters of the launch (spec/00_scope.md R7); the
reasons a step can stop; the state after reset (spec/70_reset_and_hazards.md R400). -/
namespace Sys2Proof.Machine

/-- Program execution or power-down (R38). -/
inductive Power where
  | run
  | sleep
  deriving DecidableEq, Repr

/-- The two resets of the family (R403). -/
inductive ResetKind where
  | powerOn
  | manual
  deriving DecidableEq, Repr

/-- A request the platform offers (R373): its source, its level, its vector number.  Level 16 is NMI; a request of
level 0 is never acceptable (R374). -/
structure IntRequest where
  source : Nat
  level  : Fin 17
  vec    : BitVec 8
  deriving DecidableEq, Repr

/-- A recent store and for how many more instructions the words it covers must not be executed (U6, R66). -/
structure StoreRecord where
  addr  : Word
  bytes : Nat
  left  : Nat
  deriving DecidableEq, Repr

/-- The state of the machine. -/
structure State where
  /-- R0 to R15 (R21). -/
  regs : Vector Word 16
  /-- The status register (R25). -/
  sr : Word
  /-- The global base register (R29). -/
  gbr : Word
  /-- The vector base register (R30). -/
  vbr : Word
  /-- The high half of the accumulator (R31); on the SH-1 always the sign extension of its bits 9 to 0. -/
  mach : Word
  /-- The low half of the accumulator (R31). -/
  macl : Word
  /-- The procedure register (R31). -/
  pr : Word
  /-- The address of the instruction being executed (R11, R33). -/
  pc : Word
  /-- The destination of a pending delayed branch (R36). -/
  delayTarget : Option Word
  /-- The model's own: the pending destination is that of a BF/S or BT/S that did not branch, held only for
  `bcs_slot_check_always` (R288), so that the end of the slot is no taken branch (R66, log 15). -/
  slotAfterUntaken : Bool
  /-- No interrupt is accepted before the next instruction (R37). -/
  intInhibit : Bool
  /-- Running or asleep (R38). -/
  power : Power
  /-- Memory (R50). -/
  mem : Memory
  /-- The stores of the last three instructions (U6). -/
  recentStores : List StoreRecord
  /-- The requests the platform offers (R39, R373), in the platform's order. -/
  pending : List IntRequest
  /-- The request last reported to the platform as accepted (R376). -/
  lastAccepted : Option IntRequest
  /-- The reset the platform asserts (R399). -/
  resetRequest : Option ResetKind
  /-- The model's own: how many requests have been accepted; selects the next free value (log 8). -/
  acceptedCount : Nat
  /-- The model's own: boundaries with an acceptable request passed since the last acceptance (log 8). -/
  passedCount : Nat
  /-- The model's own: for each acceptable request, at how many boundaries in a row up to the last one it was acceptable
  and passed over (R375, log 8). -/
  waits : List (IntRequest × Nat)
  /-- The parameters of the launch (R7). -/
  cfg : Config
  deriving DecidableEq, Repr

/-- Why the machine stops with a fault.  Each is safe: the model stops where the spec gives no effect. -/
inductive Fault where
  /-- Raised by any access outside exception entry that `mem_admits` refuses (R71, U5).  Safe. -/
  | notAdmitted (kind : AccessKind) (addr : Word)
  /-- Raised by exception entry when one of its three accesses fails (R381, U10).  Safe. -/
  | doubleFault
  /-- Raised by the fetch of a word that one of the last three instructions stored to, with no taken branch and no
  exception entry between (R66, U6).  Safe. -/
  | staleFetch (addr : Word)
  deriving DecidableEq, Repr

/-- Why the machine gives no meaning. -/
inductive Refusal where
  /-- An instruction whose meaning is not written.  Raised by an arm of exec only; no arm does.  Safe. -/
  | notModelled (mnemonic : String)
  /-- Raised by an instruction fetch from a little-endian region (R57, U12).  Safe. -/
  | littleEndianFetch (addr : Word)
  /-- Raised by a reset whose vector longwords the platform refuses to read (R402).  Safe. -/
  | noResetVector
  deriving DecidableEq, Repr

/-- What one data access answers (R55, R56): a value, an address error, or the platform's refusal. -/
inductive Access (α : Type) where
  | ok (v : α)
  | addressError (kind : AccessKind) (addr : Word)
  | refused (kind : AccessKind) (addr : Word)
  deriving DecidableEq, Repr

/-- What the fetch of an instruction answers (R54). -/
inductive Fetched where
  | code (w : Half)
  | addressError
  | fault (f : Fault)
  | refused (r : Refusal)
  deriving DecidableEq, Repr

/-- The parameters at reset: the SH-2 (DESIGN CHOICE, log 22), the family's vector numbers (PRESUMED, log 4), the two
open parameters without a value (logs 16 and 17), PC and R15 of a reset from the vector table (log 3), no little-endian region (log 19), nothing refused (log 20). -/
def resetConfig : Config where
  cpu := .sh2
  powerOnReset := .table
  manualReset := .table
  vecIllegal := 4
  vecSlotIllegal := 6
  vecCpuAddrErr := 9
  vecNmi := 11
  vecUserBreak := 12
  bcsSlotCheckAlways := Config.bcsSlotCheckAlwaysAtReset
  macwSatFlagSh2 := Config.macwSatFlagSh2AtReset
  leRegions := []
  refused := []

/-- The machine right after reset (R400, R401): I3 to I0 are 1111, the reserved bits of SR are 0, VBR is 0, nothing is
pending.  The registers the manual leaves undefined hold 0 (DESIGN CHOICE, unsafe, log 1).  PC and R15 hold the
longwords of the vector table, which are 0 while memory lists nothing (log 3). -/
def State.reset : State where
  regs := Vector.replicate 16 0
  sr := 0x000000F0
  gbr := 0
  vbr := 0
  mach := 0
  macl := 0
  pr := 0
  pc := 0
  delayTarget := none
  slotAfterUntaken := false
  intInhibit := false
  power := .run
  mem := []
  recentStores := []
  pending := []
  lastAccepted := none
  resetRequest := none
  acceptedCount := 0
  passedCount := 0
  waits := []
  cfg := resetConfig

end Sys2Proof.Machine
end

