-- ==== Sys2Proof/Machine/Flags.lean ====
section
/-! DEFINITION. The status register: its fields (spec/10_state.md R25 to R28) and every flag computation of the
instruction set (spec/41_arithmetic.md, spec/43_logic.md, spec/44_shift.md). -/
namespace Sys2Proof.Machine

/-- The bits of SR that exist (R25): LDC, LDC.L and RTE store the loaded value masked with them (R26). -/
def srMask : Word := 0x000003F3

/-- A word with one bit written. -/
def putBit (w : Word) (i : Nat) (b : Bool) : Word :=
  match b with
  | true => w ||| (1#32 <<< i)
  | false => w &&& ~~~(1#32 <<< i)

/-- Bit 0 of SR (R25). -/
def State.tBit (s : State) : Bool := s.sr.getLsbD 0
/-- Bit 1 of SR (R25). -/
def State.sBit (s : State) : Bool := s.sr.getLsbD 1
/-- Bit 8 of SR (R25). -/
def State.qBit (s : State) : Bool := s.sr.getLsbD 8
/-- Bit 9 of SR (R25). -/
def State.mBit (s : State) : Bool := s.sr.getLsbD 9
/-- Bits 7 to 4 of SR, the interrupt mask (R28). -/
def State.imask (s : State) : BitVec 4 := s.sr.extractLsb' 4 4

/-- `SR.T <- b`: the other bits stay (R9). -/
def State.setT (s : State) (b : Bool) : State := { s with sr := putBit s.sr 0 b }
/-- `SR.Q <- b`. -/
def State.setQ (s : State) (b : Bool) : State := { s with sr := putBit s.sr 8 b }
/-- `SR.M <- b`. -/
def State.setM (s : State) (b : Bool) : State := { s with sr := putBit s.sr 9 b }
/-- SR written as a whole: only the bits that exist are kept (R26). -/
def State.setSr (s : State) (v : Word) : State := { s with sr := v &&& srMask }

/-- A status word with the interrupt mask replaced (R376). -/
def withMask (sr : Word) (l : BitVec 4) : Word := (sr &&& 0xFFFFFF0F) ||| (l.setWidth 32 <<< 4)

/-- A truth value as a natural number. -/
def bit (b : Bool) : Nat := if b then 1 else 0

/-- The carry out of `x + y + t` (ADDC, R174): the exact sum does not fit 32 bits. -/
def carryOut (x y : Word) (t : Bool) : Bool := decide (2 ^ 32 ≤ x.toNat + y.toNat + bit t)

/-- The borrow out of `x - y - t` (SUBC, R199; NEGC with x = 0, R197): the exact difference is negative. -/
def borrowOut (x y : Word) (t : Bool) : Bool := decide (x.toNat < y.toNat + bit t)

/-- An integer outside the range of a signed longword. -/
def overflows32 (i : Int) : Bool := decide (i > 2 ^ 31 - 1) || decide (i < -2 ^ 31)

/-- Signed overflow of `x + y` (ADDV, R175). -/
def addOverflows (x y : Word) : Bool := overflows32 (x.toInt + y.toInt)

/-- Signed overflow of `x - y` (SUBV, R200). -/
def subOverflows (x y : Word) : Bool := overflows32 (x.toInt - y.toInt)

/-- CMP/HS: unsigned greater or equal (R178). -/
def unsignedGe (x y : Word) : Bool := decide (x.toNat ≥ y.toNat)
/-- CMP/HI: unsigned greater (R180). -/
def unsignedGt (x y : Word) : Bool := decide (x.toNat > y.toNat)
/-- CMP/GE: signed greater or equal (R179). -/
def signedGe (x y : Word) : Bool := decide (x.toInt ≥ y.toInt)
/-- CMP/GT: signed greater (R181). -/
def signedGt (x y : Word) : Bool := decide (x.toInt > y.toInt)

/-- CMP/STR: the bytes in at least one position are equal (R184). -/
def sameByteSomewhere (x y : Word) : Bool :=
  let d := x ^^^ y
  d.extractLsb' 24 8 == 0 || d.extractLsb' 16 8 == 0 || d.extractLsb' 8 8 == 0 || d.extractLsb' 0 8 == 0

/-- One step of the division (DIV1, R188): the partial remainder after the shift. -/
def div1Shifted (x : Word) (t : Bool) : Word := (x <<< 1) ||| BitVec.ofNat 32 (bit t)

/-- The partial remainder after one step: the divisor is subtracted when the old Q equals M, else added (R188). -/
def div1Result (shifted divisor : Word) (oldQ m : Bool) : Word :=
  if oldQ = m then shifted - divisor else shifted + divisor

/-- `tmp1` of R188: the borrow of the subtraction or the carry of the addition. -/
def div1Carry (shifted divisor : Word) (oldQ m : Bool) : Bool :=
  if oldQ = m then decide ((div1Result shifted divisor oldQ m).toNat > shifted.toNat)
  else decide ((div1Result shifted divisor oldQ m).toNat < shifted.toNat)

/-- The new Q (R188), from the bit shifted out, `tmp1` and M. -/
def div1Q (out carry m : Bool) : Bool := if m then !(xor out carry) else xor out carry

end Sys2Proof.Machine
end

