-- ==== Sys2Proof/Machine/Operands.lean ====
section
/-! DEFINITION. The operand forms of the instruction set (spec/30_encoding.md R85 to R102): registers, extension of
immediates and of loaded data, and the effective address of every addressing mode. -/
namespace Sys2Proof.Machine

/-- `R[n]` (R90). -/
def State.reg (s : State) (n : Reg) : Word := s.regs[n.val]

/-- `R[n] <- v`. -/
def State.setReg (s : State) (n : Reg) (v : Word) : State := { s with regs := s.regs.set n.val v n.isLt }

/-- `sext_8` (R9, R59, R85). -/
def sext8 (v : BitVec 8) : Word := v.signExtend 32
/-- `sext_12` (R100). -/
def sext12 (v : BitVec 12) : Word := v.signExtend 32
/-- `sext_16` (R59). -/
def sext16 (v : BitVec 16) : Word := v.signExtend 32
/-- `sext_10`, the SH-1's MACH (R31). -/
def sext10 (v : BitVec 10) : Word := v.signExtend 32
/-- `zext_8` (R85). -/
def zext8 (v : BitVec 8) : Word := v.setWidth 32
/-- `zext_16` (R195). -/
def zext16 (v : BitVec 16) : Word := v.setWidth 32
/-- `zext_4` (R94). -/
def zext4 (v : BitVec 4) : Word := v.setWidth 32

/-- The low byte of a register: what a byte store writes (R59). -/
def lowByte (v : Word) : Byte := v.extractLsb' 0 8
/-- The low word of a register: what a word store writes (R59). -/
def lowHalf (v : Word) : Half := v.extractLsb' 0 16

/-- `@(disp:4,Rn)` (R94): the displacement is scaled by the operand size. -/
def State.eaDisp (s : State) (n : Reg) (disp : BitVec 4) (size : Word) : Word := s.reg n + zext4 disp * size
/-- `@(R0,Rn)` (R95). -/
def State.eaIndexed (s : State) (n : Reg) : Word := s.reg n + s.reg 0
/-- `@(disp:8,GBR)` (R96). -/
def State.eaGbrDisp (s : State) (disp : BitVec 8) (size : Word) : Word := s.gbr + zext8 disp * size
/-- `@(R0,GBR)` (R97). -/
def State.eaGbrIndexed (s : State) : Word := s.gbr + s.reg 0

/-- The manual's PC as an operand (R11, R98): `pc + 4`, and in the delay slot of a branch to `t` the value `t + 2`
(R285). -/
def State.pcOperand (s : State) : Word :=
  match s.delayTarget with
  | none => s.pc + 4
  | some t => t + 2
/-- `@(disp:8,PC)` for a word (R98). -/
def State.eaPcWord (s : State) (disp : BitVec 8) : Word := s.pcOperand + zext8 disp * 2
/-- `@(disp:8,PC)` for a longword and for MOVA: the lowest two bits of the PC are masked (R98). -/
def State.eaPcLong (s : State) (disp : BitVec 8) : Word := (s.pcOperand &&& 0xFFFFFFFC) + zext8 disp * 4

/-- The destination of BF, BT, BF/S, BT/S (R99, R281). -/
def State.branchTarget8 (s : State) (disp : BitVec 8) : Word := s.pc + 4 + sext8 disp * 2
/-- The destination of BRA, BSR (R100, R281). -/
def State.branchTarget12 (s : State) (disp : BitVec 12) : Word := s.pc + 4 + sext12 disp * 2
/-- The destination of BRAF, BSRF (R101, R281). -/
def State.branchTargetReg (s : State) (m : Reg) : Word := s.pc + 4 + s.reg m

/-- What MACH holds after a value is stored in it (R322): all 32 bits on the SH-2, the sign-extended low ten bits on
the SH-1. -/
def machStore (cpu : Cpu) (v : Word) : Word :=
  match cpu with
  | .sh1 => sext10 (v.extractLsb' 0 10)
  | .sh2 => v

/-- `next_pc` (R371): the address of the instruction that would execute next. -/
def State.nextPc (s : State) : Word :=
  match s.delayTarget with
  | none => s.pc + 2
  | some t => t

end Sys2Proof.Machine
end

