-- ==== Sys2Proof/Machine/Ops.lean ====
section
/-! DEFINITION. The shared operations of the instructions: data accesses (spec/20_memory.md R55, R56), the end of an
instruction and of a delay slot (spec/10_state.md R34, spec/45_branch.md R283), branches (R281 to R283), taking an
exception (spec/60_exceptions.md R370) and returning from one (spec/46_system_control.md R341). -/
namespace Sys2Proof.Machine

/-- What a step answers. -/
abbrev Result := Host.Outcome State Fault Refusal

/-! ### Data accesses -/

/-- A value carried on through an access; a failed access stays failed. -/
def Access.bind {α β : Type} (x : Access α) (k : α → Access β) : Access β :=
  match x with
  | .ok v => k v
  | .addressError kind addr => .addressError kind addr
  | .refused kind addr => .refused kind addr

/-- An access that is aligned or not, and admitted or not: the alignment is checked first (R55, R56). -/
def checkedAccess {α : Type} (s : State) (kind : AccessKind) (bytes : Nat) (aligned : Bool) (a : Word) (v : α) :
    Access α :=
  match aligned, memAdmits s.cfg a bytes kind with
  | false, _ => .addressError kind a
  | true, false => .refused kind a
  | true, true => .ok v

/-- `MemRead(a, 1)` (R55): a byte access is never misaligned (R53). -/
def State.readByte (s : State) (a : Word) : Access Byte :=
  checkedAccess s .read 1 true a (s.mem.byte a)

/-- `MemRead(a, 2)` (R55). -/
def State.readHalf (s : State) (a : Word) : Access Half :=
  checkedAccess s .read 2 (alignedHalf a) a (s.mem.half (littleEndian s.cfg a) a)

/-- `MemRead(a, 4)` (R55). -/
def State.readLong (s : State) (a : Word) : Access Word :=
  checkedAccess s .read 4 (alignedLong a) a (s.mem.long (littleEndian s.cfg a) a)

/-- For how many instructions after a store the words it covers must not be executed (R66, U6). -/
def staleWindow : Nat := 3

/-- The state with other memory, and the store remembered for the next three instructions (U6). -/
def State.stored (s : State) (a : Word) (bytes : Nat) (m : Memory) : State :=
  { s with mem := m, recentStores := ⟨a, bytes, staleWindow⟩ :: s.recentStores }

/-- `MemWrite(a, 1, v)` (R56). -/
def State.writeByte (s : State) (a : Word) (v : Byte) : Access State :=
  checkedAccess s .write 1 true a (s.stored a 1 (s.mem.setByte a v))

/-- `MemWrite(a, 2, v)` (R56). -/
def State.writeHalf (s : State) (a : Word) (v : Half) : Access State :=
  checkedAccess s .write 2 (alignedHalf a) a (s.stored a 2 (s.mem.setHalf (littleEndian s.cfg a) a v))

/-- `MemWrite(a, 4, v)` (R56). -/
def State.writeLong (s : State) (a : Word) (v : Word) : Access State :=
  checkedAccess s .write 4 (alignedLong a) a (s.stored a 4 (s.mem.setLong (littleEndian s.cfg a) a v))

/-! ### Taking an exception -/

/-- The sequence of R370, which TRAPA spells out (R343): SR pushed, then the return PC, then the vector read; R15
goes down by 8; an interrupt writes the mask (R376); nothing is pending any more; the handler's address is the new pc.
The accesses are made in this order and any of them can fail. -/
def State.enterHandler (s : State) (vec : BitVec 8) (ret : Word) (mask : Option (BitVec 4)) : Access State :=
  (s.writeLong (s.reg 15 - 4) s.sr).bind fun s1 =>
  (s1.writeLong (s.reg 15 - 8) ret).bind fun s2 =>
  (s2.readLong (s.vbr + zext8 vec * 4)).bind fun handler =>
  .ok { s2.setReg 15 (s.reg 15 - 8) with
    sr := match mask with
      | none => s.sr
      | some l => withMask s.sr l
    delayTarget := none
    slotAfterUntaken := false
    intInhibit := false
    power := .run
    recentStores := []
    pc := handler }

/-- Exception processing other than TRAPA's (R370): a failed access inside it is a double fault (R381). -/
def State.exceptionEntry (s : State) (vec : BitVec 8) (ret : Word) (mask : Option (BitVec 4)) : Result :=
  match s.enterHandler vec ret mask with
  | .ok t => .next t
  | .addressError _ _ => .fault .doubleFault
  | .refused _ _ => .fault .doubleFault

/-- The address error exception of a data access (R363): the instruction has changed nothing (R58, R379), the stacked
PC is that of the instruction that would execute next (R371). -/
def State.addressErrorException (s : State) : Result :=
  s.exceptionEntry s.cfg.vecCpuAddrErr s.nextPc none

/-- The address error exception of the fetch at `pc` (R363, R371). -/
def State.fetchErrorException (s : State) : Result :=
  s.exceptionEntry s.cfg.vecCpuAddrErr s.pc none

/-- A code that is not an instruction, or an instruction a delay slot may not hold: a slot illegal instruction
exception in a delay slot, stacking the destination of the branch (R362, R371), otherwise a general illegal
instruction exception, stacking the address of the code (R361, R371). -/
def State.illegalInstruction (s : State) : Result :=
  match s.delayTarget with
  | some t => s.exceptionEntry s.cfg.vecSlotIllegal t none
  | none => s.exceptionEntry s.cfg.vecIllegal s.pc none

/-- What an instruction does with one data access: go on with the value, take the address error exception from the
state before the instruction (R58, R363), or stop where the platform refuses (R71, U5). -/
def State.onAccess {α : Type} (s : State) (x : Access α) (k : α → Result) : Result :=
  match x with
  | .ok v => k v
  | .addressError _ _ => s.addressErrorException
  | .refused kind a => .fault (.notAdmitted kind a)

/-- An instruction that rewrites the PC: in a delay slot it is a slot illegal instruction, detected before it has any
effect (R284, R362). -/
def State.outsideSlot (s : State) (r : Result) : Result :=
  match s.delayTarget with
  | none => r
  | some _ => s.illegalInstruction

/-- An instruction of the SH-2 only: on the SH-1 its code is not assigned (R108, R361). -/
def State.onSh2 (s : State) (r : Result) : Result :=
  match s.cfg.cpu with
  | .sh2 => r
  | .sh1 => s.illegalInstruction

/-! ### The end of an instruction -/

/-- The record of recent stores after the sequential advance: the end of the slot of a branch that was taken, wherever
it goes, after which every store is seen (R66, R415); otherwise it stays. -/
def State.storesAfterAdvance (s : State) : List StoreRecord :=
  match s.delayTarget, s.slotAfterUntaken with
  | some _, false => []
  | _, _ => s.recentStores

/-- The end of an instruction (R34): `pc <- pc + 2`, or the destination of the pending branch when the instruction
stands in a delay slot (R283); `int_inhibit` becomes `inhibit` (R344). -/
def State.advance (s : State) (inhibit : Bool) : State :=
  { s with
    pc := s.nextPc
    delayTarget := none
    slotAfterUntaken := false
    intInhibit := inhibit
    recentStores := s.storesAfterAdvance }

/-- The end of an ordinary instruction: it clears `int_inhibit` (R344). -/
def State.finish (s : State) : State := s.advance false

/-- The end of an interrupt-disabled instruction (R344, R378). -/
def State.finishInhibit (s : State) : State := s.advance true

/-! ### Branches -/

/-- A branch that is not delayed and is taken (R282): it continues directly at its target. -/
def State.branchNow (s : State) (target : Word) : State :=
  { s with pc := target, delayTarget := none, slotAfterUntaken := false, intInhibit := false, recentStores := [] }

/-- A delayed branch instruction (R283): the destination is held, the slot instruction is next, and nothing is
accepted between the two (R286). -/
def State.delayedBranch (s : State) (target : Option Word) : State :=
  { s with pc := s.pc + 2, delayTarget := target, slotAfterUntaken := false, intInhibit := true }

/-- What a BF/S or BT/S leaves pending (R288, R290): its destination when it branches; when it does not, nothing, or
with `bcs_slot_check_always` the next instruction in sequence. -/
def State.conditionalTarget (s : State) (taken : Bool) (disp : BitVec 8) : Option Word :=
  match taken, s.cfg.bcsSlotCheckAlways with
  | true, _ => some (s.branchTarget8 disp)
  | false, true => some (s.pc + 4)
  | false, false => none

/-- BF/S and BT/S (R288, R290): the slot instruction is next; a destination held although the branch is not taken is
marked as such. -/
def State.delayedConditional (s : State) (taken : Bool) (disp : BitVec 8) : State :=
  { s.delayedBranch (s.conditionalTarget taken disp) with
    slotAfterUntaken := !taken && s.cfg.bcsSlotCheckAlways }

/-! ### Loads and stores -/

/-- A byte loaded into a register, sign-extended (R59), with `s` the state whose register is written. -/
def State.loadByte (s : State) (a : Word) (n : Reg) : Result :=
  s.onAccess (s.readByte a) fun v => .next (s.setReg n (sext8 v)).finish

/-- A word loaded into a register, sign-extended (R59). -/
def State.loadHalf (s : State) (a : Word) (n : Reg) : Result :=
  s.onAccess (s.readHalf a) fun v => .next (s.setReg n (sext16 v)).finish

/-- A longword loaded into a register. -/
def State.loadLong (s : State) (a : Word) (n : Reg) : Result :=
  s.onAccess (s.readLong a) fun v => .next (s.setReg n v).finish

/-- The low byte of a value stored (R59). -/
def State.storeByte (s : State) (a : Word) (v : Word) : Result :=
  s.onAccess (s.writeByte a (lowByte v)) fun s1 => .next s1.finish

/-- The low word of a value stored (R59). -/
def State.storeHalf (s : State) (a : Word) (v : Word) : Result :=
  s.onAccess (s.writeHalf a (lowHalf v)) fun s1 => .next s1.finish

/-- A longword stored. -/
def State.storeLong (s : State) (a : Word) (v : Word) : Result :=
  s.onAccess (s.writeLong a v) fun s1 => .next s1.finish

/-- Post-increment (R92, R133): the address register goes up by the size, then the loaded value is written, so that
it wins when the two are the same register. -/
def State.loadedInc (s : State) (m n : Reg) (size v : Word) : State :=
  (s.setReg m (s.reg m + size)).setReg n v

/-- A longword popped from `@Rm+` and given to a control or system register, interrupt-disabled (R319 to R328). -/
def State.popControl (s : State) (m : Reg) (put : State → Word → State) : Result :=
  s.onAccess (s.readLong (s.reg m)) fun v => .next ((put s v).setReg m (s.reg m + 4)).finishInhibit

/-- A control or system register pushed to `@-Rn`, interrupt-disabled (R332 to R340). -/
def State.pushControl (s : State) (n : Reg) (v : Word) : Result :=
  s.onAccess (s.writeLong (s.reg n - 4) v) fun s1 => .next (s1.setReg n (s.reg n - 4)).finishInhibit

/-- The byte at `@(R0,GBR)` read, combined and written back (R231): the write is made even when the byte does not
change. -/
def State.modifyGbrByte (s : State) (f : Byte → Byte) : Result :=
  s.onAccess (s.readByte s.eaGbrIndexed) fun v =>
  s.onAccess (s.writeByte s.eaGbrIndexed (f v)) fun s1 => .next s1.finish

/-! ### The accumulator -/

/-- `MAC <- v`: MACH the upper half, MACL the lower (R211). -/
def State.setMac (s : State) (v : BitVec 64) : State :=
  { s with mach := v.extractLsb' 32 32, macl := v.extractLsb' 0 32 }

/-- The 64-bit accumulator (R31). -/
def State.mac (s : State) : BitVec 64 := s.mach ++ s.macl

/-- `MACH <- v` by LDS (R322). -/
def State.setMach (s : State) (v : Word) : State := { s with mach := machStore s.cfg.cpu v }
/-- `MACL <- v`. -/
def State.setMacl (s : State) (v : Word) : State := { s with macl := v }
/-- `PR <- v`. -/
def State.setPr (s : State) (v : Word) : State := { s with pr := v }
/-- `GBR <- v`. -/
def State.setGbr (s : State) (v : Word) : State := { s with gbr := v }
/-- `VBR <- v`. -/
def State.setVbr (s : State) (v : Word) : State := { s with vbr := v }

/-- An integer held within bounds (R219, R223). -/
def clamp (lo hi i : Int) : Int := if i > hi then hi else if i < lo then lo else i

/-- MAC.L's accumulation (R218, R219): with S = 0 modulo 2^64, with S = 1 limited to 48 bits. -/
def State.accumulateLong (s : State) (a b : Word) : State :=
  let sum := s.mac.toInt + a.toInt * b.toInt
  if s.sBit then s.setMac (BitVec.ofInt 64 (clamp (-2 ^ 47) (2 ^ 47 - 1) sum))
  else s.setMac (BitVec.ofInt 64 sum)

/-- MAC.W's accumulation with S = 0: 64 bits on the SH-2 (R220), 42 bits on the SH-1, the upper 22 bits of MACH
copying bit 9 (R221). -/
def State.accumulateHalf (s : State) (p : Int) : State :=
  match s.cfg.cpu with
  | .sh2 => s.setMac (BitVec.ofInt 64 (s.mac.toInt + p))
  | .sh1 =>
    let r := BitVec.ofInt 42 ((s.mach.extractLsb' 0 10 ++ s.macl : BitVec 42).toInt + p)
    { s with mach := sext10 (r.extractLsb' 32 10), macl := r.extractLsb' 0 32 }

/-- Does an overflow of MAC.W with S = 1 set bit 0 of MACH (R223)?  On the SH-1 it does, on the SH-2 the parameter
says. -/
def macwSetsFlag (c : Config) : Bool :=
  match c.cpu with
  | .sh1 => true
  | .sh2 => c.macwSatFlagSh2

/-- MAC.W's accumulation with S = 1 (R223): 32 bits in MACL, limited; an overflow may set bit 0 of MACH. -/
def State.accumulateHalfSaturating (s : State) (p : Int) : State :=
  let sum := s.macl.toInt + p
  { s with
    macl := BitVec.ofInt 32 (clamp (-2 ^ 31) (2 ^ 31 - 1) sum)
    mach := if overflows32 sum && macwSetsFlag s.cfg then s.mach ||| 1 else s.mach }

/-! ### Return from exception -/

/-- RTE (R341): PC is popped at R15, SR above it; the branch to the popped PC is delayed. -/
def State.returnFromException (s : State) : Result :=
  s.onAccess (s.readLong (s.reg 15)) fun newPc =>
  s.onAccess (s.readLong (s.reg 15 + 4)) fun newSr =>
  .next (((s.setReg 15 (s.reg 15 + 8)).setSr newSr).delayedBranch (some newPc))

end Sys2Proof.Machine
end

