-- ==== Sys2Proof/Machine/Arithmetic.lean ====
section
/-! DEFINITION. The arithmetic instructions that do not use the multiplier (spec/41_arithmetic.md). -/
namespace Sys2Proof.Machine

/-- `ADD Rm,Rn` (R172). -/
def execAdd (m n : Reg) (s : State) : Result := .next (s.setReg n (s.reg n + s.reg m)).finish
/-- `ADD #imm,Rn` (R173). -/
def execAddImm (imm : BitVec 8) (n : Reg) (s : State) : Result := .next (s.setReg n (s.reg n + sext8 imm)).finish
/-- `ADDC Rm,Rn` (R174). -/
def execAddc (m n : Reg) (s : State) : Result :=
  .next ((s.setReg n (s.reg n + s.reg m + BitVec.ofNat 32 (bit s.tBit))).setT
    (carryOut (s.reg n) (s.reg m) s.tBit)).finish
/-- `ADDV Rm,Rn` (R175). -/
def execAddv (m n : Reg) (s : State) : Result :=
  .next ((s.setReg n (s.reg n + s.reg m)).setT (addOverflows (s.reg n) (s.reg m))).finish

/-- `CMP/EQ #imm,R0` (R185). -/
def execCmpEqImm (imm : BitVec 8) (s : State) : Result := .next (s.setT (s.reg 0 == sext8 imm)).finish
/-- `CMP/EQ Rm,Rn` (R177). -/
def execCmpEq (m n : Reg) (s : State) : Result := .next (s.setT (s.reg n == s.reg m)).finish
/-- `CMP/HS Rm,Rn` (R178). -/
def execCmpHs (m n : Reg) (s : State) : Result := .next (s.setT (unsignedGe (s.reg n) (s.reg m))).finish
/-- `CMP/GE Rm,Rn` (R179). -/
def execCmpGe (m n : Reg) (s : State) : Result := .next (s.setT (signedGe (s.reg n) (s.reg m))).finish
/-- `CMP/HI Rm,Rn` (R180). -/
def execCmpHi (m n : Reg) (s : State) : Result := .next (s.setT (unsignedGt (s.reg n) (s.reg m))).finish
/-- `CMP/GT Rm,Rn` (R181). -/
def execCmpGt (m n : Reg) (s : State) : Result := .next (s.setT (signedGt (s.reg n) (s.reg m))).finish
/-- `CMP/PL Rn` (R182). -/
def execCmpPl (n : Reg) (s : State) : Result := .next (s.setT (signedGt (s.reg n) 0)).finish
/-- `CMP/PZ Rn` (R183). -/
def execCmpPz (n : Reg) (s : State) : Result := .next (s.setT (signedGe (s.reg n) 0)).finish
/-- `CMP/STR Rm,Rn` (R184). -/
def execCmpStr (m n : Reg) (s : State) : Result := .next (s.setT (sameByteSomewhere (s.reg n) (s.reg m))).finish

/-- `DIV1 Rm,Rn` (R188): the divisor is read after Rn is shifted, which shows when m = n. -/
def execDiv1 (m n : Reg) (s : State) : Result :=
  let shifted := div1Shifted (s.reg n) s.tBit
  let s1 := s.setReg n shifted
  let q := div1Q ((s.reg n).getLsbD 31) (div1Carry shifted (s1.reg m) s.qBit s.mBit) s.mBit
  .next (((s1.setReg n (div1Result shifted (s1.reg m) s.qBit s.mBit)).setQ q).setT (q == s.mBit)).finish
/-- `DIV0S Rm,Rn` (R186). -/
def execDiv0s (m n : Reg) (s : State) : Result :=
  let q := (s.reg n).getLsbD 31
  let d := (s.reg m).getLsbD 31
  .next (((s.setQ q).setM d).setT (xor d q)).finish
/-- `DIV0U` (R187). -/
def execDiv0u (s : State) : Result := .next (((s.setM false).setQ false).setT false).finish

/-- `DT Rn` (R191). -/
def execDt (n : Reg) (s : State) : Result :=
  s.onSh2 (.next ((s.setReg n (s.reg n - 1)).setT (s.reg n - 1 == 0)).finish)

/-- `EXTS.B Rm,Rn` (R192). -/
def execExtsB (m n : Reg) (s : State) : Result := .next (s.setReg n (sext8 (lowByte (s.reg m)))).finish
/-- `EXTS.W Rm,Rn` (R193). -/
def execExtsW (m n : Reg) (s : State) : Result := .next (s.setReg n (sext16 (lowHalf (s.reg m)))).finish
/-- `EXTU.B Rm,Rn` (R194). -/
def execExtuB (m n : Reg) (s : State) : Result := .next (s.setReg n (zext8 (lowByte (s.reg m)))).finish
/-- `EXTU.W Rm,Rn` (R195). -/
def execExtuW (m n : Reg) (s : State) : Result := .next (s.setReg n (zext16 (lowHalf (s.reg m)))).finish

/-- `NEG Rm,Rn` (R196). -/
def execNeg (m n : Reg) (s : State) : Result := .next (s.setReg n (0 - s.reg m)).finish
/-- `NEGC Rm,Rn` (R197). -/
def execNegc (m n : Reg) (s : State) : Result :=
  .next ((s.setReg n (0 - s.reg m - BitVec.ofNat 32 (bit s.tBit))).setT (borrowOut 0 (s.reg m) s.tBit)).finish
/-- `SUB Rm,Rn` (R198). -/
def execSub (m n : Reg) (s : State) : Result := .next (s.setReg n (s.reg n - s.reg m)).finish
/-- `SUBC Rm,Rn` (R199). -/
def execSubc (m n : Reg) (s : State) : Result :=
  .next ((s.setReg n (s.reg n - s.reg m - BitVec.ofNat 32 (bit s.tBit))).setT
    (borrowOut (s.reg n) (s.reg m) s.tBit)).finish
/-- `SUBV Rm,Rn` (R200). -/
def execSubv (m n : Reg) (s : State) : Result :=
  .next ((s.setReg n (s.reg n - s.reg m)).setT (subOverflows (s.reg n) (s.reg m))).finish

end Sys2Proof.Machine
end

