-- ==== Sys2Proof/Machine/Branch.lean ====
section
/-! DEFINITION. The branch instructions (spec/45_branch.md).  Each of them is a slot illegal instruction in a delay
slot (R284). -/
namespace Sys2Proof.Machine

/-- `BF label` (R287). -/
def execBf (disp : BitVec 8) (s : State) : Result :=
  s.outsideSlot (.next (if s.tBit then s.finish else s.branchNow (s.branchTarget8 disp)))
/-- `BF/S label` (R288). -/
def execBfS (disp : BitVec 8) (s : State) : Result :=
  s.onSh2 (s.outsideSlot (.next (s.delayedConditional (!s.tBit) disp)))
/-- `BT label` (R289). -/
def execBt (disp : BitVec 8) (s : State) : Result :=
  s.outsideSlot (.next (if s.tBit then s.branchNow (s.branchTarget8 disp) else s.finish))
/-- `BT/S label` (R290). -/
def execBtS (disp : BitVec 8) (s : State) : Result :=
  s.onSh2 (s.outsideSlot (.next (s.delayedConditional s.tBit disp)))
/-- `BRA label` (R291). -/
def execBra (disp : BitVec 12) (s : State) : Result :=
  s.outsideSlot (.next (s.delayedBranch (some (s.branchTarget12 disp))))
/-- `BRAF Rm` (R292). -/
def execBraf (m : Reg) (s : State) : Result :=
  s.onSh2 (s.outsideSlot (.next (s.delayedBranch (some (s.branchTargetReg m)))))
/-- `BSR label` (R293): PR is the address after the slot instruction. -/
def execBsr (disp : BitVec 12) (s : State) : Result :=
  s.outsideSlot (.next ((s.setPr (s.pc + 4)).delayedBranch (some (s.branchTarget12 disp))))
/-- `BSRF Rm` (R294). -/
def execBsrf (m : Reg) (s : State) : Result :=
  s.onSh2 (s.outsideSlot (.next ((s.setPr (s.pc + 4)).delayedBranch (some (s.branchTargetReg m)))))
/-- `JMP @Rm` (R295): the destination is the register's value, no memory is read. -/
def execJmp (m : Reg) (s : State) : Result := s.outsideSlot (.next (s.delayedBranch (some (s.reg m))))
/-- `JSR @Rm` (R296). -/
def execJsr (m : Reg) (s : State) : Result :=
  s.outsideSlot (.next ((s.setPr (s.pc + 4)).delayedBranch (some (s.reg m))))
/-- `RTS` (R297). -/
def execRts (s : State) : Result := s.outsideSlot (.next (s.delayedBranch (some s.pr)))

end Sys2Proof.Machine
end

