-- ==== Sys2Proof/Machine/DataTransfer.lean ====
section
/-! DEFINITION. The data transfer instructions (spec/40_data_transfer.md). -/
namespace Sys2Proof.Machine

/-- `MOV #imm,Rn` (R143). -/
def execMovImm (imm : BitVec 8) (n : Reg) (s : State) : Result := .next (s.setReg n (sext8 imm)).finish
/-- `MOV.W @(disp,PC),Rn` (R144, R146). -/
def execMovWPc (disp : BitVec 8) (n : Reg) (s : State) : Result := s.loadHalf (s.eaPcWord disp) n
/-- `MOV.L @(disp,PC),Rn` (R145, R146). -/
def execMovLPc (disp : BitVec 8) (n : Reg) (s : State) : Result := s.loadLong (s.eaPcLong disp) n
/-- `MOV Rm,Rn` (R122). -/
def execMov (m n : Reg) (s : State) : Result := .next (s.setReg n (s.reg m)).finish

/-- `MOV.B Rm,@Rn` (R123). -/
def execMovBStore (m n : Reg) (s : State) : Result := s.storeByte (s.reg n) (s.reg m)
/-- `MOV.W Rm,@Rn` (R124). -/
def execMovWStore (m n : Reg) (s : State) : Result := s.storeHalf (s.reg n) (s.reg m)
/-- `MOV.L Rm,@Rn` (R125). -/
def execMovLStore (m n : Reg) (s : State) : Result := s.storeLong (s.reg n) (s.reg m)
/-- `MOV.B @Rm,Rn` (R126). -/
def execMovBLoad (m n : Reg) (s : State) : Result := s.loadByte (s.reg m) n
/-- `MOV.W @Rm,Rn` (R127). -/
def execMovWLoad (m n : Reg) (s : State) : Result := s.loadHalf (s.reg m) n
/-- `MOV.L @Rm,Rn` (R128). -/
def execMovLLoad (m n : Reg) (s : State) : Result := s.loadLong (s.reg m) n

/-- `MOV.B Rm,@-Rn` (R129, R130): the value stored is that of Rm before the instruction. -/
def execMovBStoreDec (m n : Reg) (s : State) : Result :=
  s.onAccess (s.writeByte (s.reg n - 1) (lowByte (s.reg m))) fun s1 => .next (s1.setReg n (s.reg n - 1)).finish
/-- `MOV.W Rm,@-Rn` (R129, R131). -/
def execMovWStoreDec (m n : Reg) (s : State) : Result :=
  s.onAccess (s.writeHalf (s.reg n - 2) (lowHalf (s.reg m))) fun s1 => .next (s1.setReg n (s.reg n - 2)).finish
/-- `MOV.L Rm,@-Rn` (R129, R132). -/
def execMovLStoreDec (m n : Reg) (s : State) : Result :=
  s.onAccess (s.writeLong (s.reg n - 4) (s.reg m)) fun s1 => .next (s1.setReg n (s.reg n - 4)).finish

/-- `MOV.B @Rm+,Rn` (R133, R134). -/
def execMovBLoadInc (m n : Reg) (s : State) : Result :=
  s.onAccess (s.readByte (s.reg m)) fun v => .next (s.loadedInc m n 1 (sext8 v)).finish
/-- `MOV.W @Rm+,Rn` (R133, R135). -/
def execMovWLoadInc (m n : Reg) (s : State) : Result :=
  s.onAccess (s.readHalf (s.reg m)) fun v => .next (s.loadedInc m n 2 (sext16 v)).finish
/-- `MOV.L @Rm+,Rn` (R133, R136). -/
def execMovLLoadInc (m n : Reg) (s : State) : Result :=
  s.onAccess (s.readLong (s.reg m)) fun v => .next (s.loadedInc m n 4 v).finish

/-- `MOV.B R0,@(disp,Rn)` (R154). -/
def execMovBStoreDisp (disp : BitVec 4) (n : Reg) (s : State) : Result := s.storeByte (s.eaDisp n disp 1) (s.reg 0)
/-- `MOV.W R0,@(disp,Rn)` (R155). -/
def execMovWStoreDisp (disp : BitVec 4) (n : Reg) (s : State) : Result := s.storeHalf (s.eaDisp n disp 2) (s.reg 0)
/-- `MOV.L Rm,@(disp,Rn)` (R156). -/
def execMovLStoreDisp (m : Reg) (disp : BitVec 4) (n : Reg) (s : State) : Result :=
  s.storeLong (s.eaDisp n disp 4) (s.reg m)
/-- `MOV.B @(disp,Rm),R0` (R157). -/
def execMovBLoadDisp (disp : BitVec 4) (m : Reg) (s : State) : Result := s.loadByte (s.eaDisp m disp 1) 0
/-- `MOV.W @(disp,Rm),R0` (R158). -/
def execMovWLoadDisp (disp : BitVec 4) (m : Reg) (s : State) : Result := s.loadHalf (s.eaDisp m disp 2) 0
/-- `MOV.L @(disp,Rm),Rn` (R159). -/
def execMovLLoadDisp (disp : BitVec 4) (m n : Reg) (s : State) : Result := s.loadLong (s.eaDisp m disp 4) n

/-- `MOV.B Rm,@(R0,Rn)` (R137). -/
def execMovBStoreIdx (m n : Reg) (s : State) : Result := s.storeByte (s.eaIndexed n) (s.reg m)
/-- `MOV.W Rm,@(R0,Rn)` (R138). -/
def execMovWStoreIdx (m n : Reg) (s : State) : Result := s.storeHalf (s.eaIndexed n) (s.reg m)
/-- `MOV.L Rm,@(R0,Rn)` (R139). -/
def execMovLStoreIdx (m n : Reg) (s : State) : Result := s.storeLong (s.eaIndexed n) (s.reg m)
/-- `MOV.B @(R0,Rm),Rn` (R140). -/
def execMovBLoadIdx (m n : Reg) (s : State) : Result := s.loadByte (s.eaIndexed m) n
/-- `MOV.W @(R0,Rm),Rn` (R141). -/
def execMovWLoadIdx (m n : Reg) (s : State) : Result := s.loadHalf (s.eaIndexed m) n
/-- `MOV.L @(R0,Rm),Rn` (R142). -/
def execMovLLoadIdx (m n : Reg) (s : State) : Result := s.loadLong (s.eaIndexed m) n

/-- `MOV.B R0,@(disp,GBR)` (R150). -/
def execMovBStoreGbr (disp : BitVec 8) (s : State) : Result := s.storeByte (s.eaGbrDisp disp 1) (s.reg 0)
/-- `MOV.W R0,@(disp,GBR)` (R151). -/
def execMovWStoreGbr (disp : BitVec 8) (s : State) : Result := s.storeHalf (s.eaGbrDisp disp 2) (s.reg 0)
/-- `MOV.L R0,@(disp,GBR)` (R152). -/
def execMovLStoreGbr (disp : BitVec 8) (s : State) : Result := s.storeLong (s.eaGbrDisp disp 4) (s.reg 0)
/-- `MOV.B @(disp,GBR),R0` (R147). -/
def execMovBLoadGbr (disp : BitVec 8) (s : State) : Result := s.loadByte (s.eaGbrDisp disp 1) 0
/-- `MOV.W @(disp,GBR),R0` (R148). -/
def execMovWLoadGbr (disp : BitVec 8) (s : State) : Result := s.loadHalf (s.eaGbrDisp disp 2) 0
/-- `MOV.L @(disp,GBR),R0` (R149). -/
def execMovLLoadGbr (disp : BitVec 8) (s : State) : Result := s.loadLong (s.eaGbrDisp disp 4) 0

/-- `MOVA @(disp,PC),R0` (R161): the address itself, no access. -/
def execMova (disp : BitVec 8) (s : State) : Result := .next (s.setReg 0 (s.eaPcLong disp)).finish
/-- `MOVT Rn` (R162). -/
def execMovt (n : Reg) (s : State) : Result := .next (s.setReg n (BitVec.ofNat 32 (bit s.tBit))).finish

/-- The lower two bytes exchanged (R163). -/
def swapBytes (v : Word) : Word := v.extractLsb' 16 16 ++ v.extractLsb' 0 8 ++ v.extractLsb' 8 8
/-- The two words exchanged (R164). -/
def swapHalves (v : Word) : Word := v.extractLsb' 0 16 ++ v.extractLsb' 16 16
/-- The middle 32 bits of the pair `x ++ y` (R165). -/
def middle (x y : Word) : Word := x.extractLsb' 0 16 ++ y.extractLsb' 16 16

/-- `SWAP.B Rm,Rn` (R163). -/
def execSwapB (m n : Reg) (s : State) : Result := .next (s.setReg n (swapBytes (s.reg m))).finish
/-- `SWAP.W Rm,Rn` (R164). -/
def execSwapW (m n : Reg) (s : State) : Result := .next (s.setReg n (swapHalves (s.reg m))).finish
/-- `XTRCT Rm,Rn` (R165). -/
def execXtrct (m n : Reg) (s : State) : Result := .next (s.setReg n (middle (s.reg m) (s.reg n))).finish

end Sys2Proof.Machine
end

