-- ==== Sys2Proof/Machine/Logic.lean ====
section
/-! DEFINITION. The logic instructions (spec/43_logic.md). -/
namespace Sys2Proof.Machine

/-- `AND Rm,Rn` (R232). -/
def execAnd (m n : Reg) (s : State) : Result := .next (s.setReg n (s.reg n &&& s.reg m)).finish
/-- `AND #imm,R0` (R233). -/
def execAndImm (imm : BitVec 8) (s : State) : Result := .next (s.setReg 0 (s.reg 0 &&& zext8 imm)).finish
/-- `AND.B #imm,@(R0,GBR)` (R234). -/
def execAndB (imm : BitVec 8) (s : State) : Result := s.modifyGbrByte fun v => v &&& imm
/-- `NOT Rm,Rn` (R235). -/
def execNot (m n : Reg) (s : State) : Result := .next (s.setReg n (~~~ s.reg m)).finish
/-- `OR Rm,Rn` (R236). -/
def execOr (m n : Reg) (s : State) : Result := .next (s.setReg n (s.reg n ||| s.reg m)).finish
/-- `OR #imm,R0` (R237). -/
def execOrImm (imm : BitVec 8) (s : State) : Result := .next (s.setReg 0 (s.reg 0 ||| zext8 imm)).finish
/-- `OR.B #imm,@(R0,GBR)` (R238). -/
def execOrB (imm : BitVec 8) (s : State) : Result := s.modifyGbrByte fun v => v ||| imm

/-- `TAS.B @Rn` (R239): the write is made whether or not bit 7 was already set.  That the bus is not released between
the two accesses is not visible on one core (log 24). -/
def execTasB (n : Reg) (s : State) : Result :=
  s.onAccess (s.readByte (s.reg n)) fun v =>
  s.onAccess (s.writeByte (s.reg n) (v ||| 0x80)) fun s1 => .next (s1.setT (v == 0)).finish

/-- `TST Rm,Rn` (R240). -/
def execTst (m n : Reg) (s : State) : Result := .next (s.setT (s.reg n &&& s.reg m == 0)).finish
/-- `TST #imm,R0` (R241). -/
def execTstImm (imm : BitVec 8) (s : State) : Result := .next (s.setT (s.reg 0 &&& zext8 imm == 0)).finish
/-- `TST.B #imm,@(R0,GBR)` (R242): the byte is read once and not written. -/
def execTstB (imm : BitVec 8) (s : State) : Result :=
  s.onAccess (s.readByte s.eaGbrIndexed) fun v => .next (s.setT (v &&& imm == 0)).finish
/-- `XOR Rm,Rn` (R243). -/
def execXor (m n : Reg) (s : State) : Result := .next (s.setReg n (s.reg n ^^^ s.reg m)).finish
/-- `XOR #imm,R0` (R244). -/
def execXorImm (imm : BitVec 8) (s : State) : Result := .next (s.setReg 0 (s.reg 0 ^^^ zext8 imm)).finish
/-- `XOR.B #imm,@(R0,GBR)` (R245). -/
def execXorB (imm : BitVec 8) (s : State) : Result := s.modifyGbrByte fun v => v ^^^ imm

end Sys2Proof.Machine
end

