-- ==== Sys2Proof/Machine/Multiply.lean ====
section
/-! DEFINITION. The multiply and multiply-and-accumulate instructions (spec/42_multiply.md). -/
namespace Sys2Proof.Machine

/-- `DMULS.L Rm,Rn` (R212). -/
def execDmulsL (m n : Reg) (s : State) : Result :=
  s.onSh2 (.next (s.setMac (BitVec.ofInt 64 ((s.reg n).toInt * (s.reg m).toInt))).finish)
/-- `DMULU.L Rm,Rn` (R213). -/
def execDmuluL (m n : Reg) (s : State) : Result :=
  s.onSh2 (.next (s.setMac (BitVec.ofNat 64 ((s.reg n).toNat * (s.reg m).toNat))).finish)
/-- `MUL.L Rm,Rn` (R214). -/
def execMulL (m n : Reg) (s : State) : Result := s.onSh2 (.next (s.setMacl (s.reg n * s.reg m)).finish)
/-- `MULS.W Rm,Rn` (R215). -/
def execMulsW (m n : Reg) (s : State) : Result :=
  .next (s.setMacl (BitVec.ofInt 32 ((lowHalf (s.reg n)).toInt * (lowHalf (s.reg m)).toInt))).finish
/-- `MULU.W Rm,Rn` (R216). -/
def execMuluW (m n : Reg) (s : State) : Result :=
  .next (s.setMacl (BitVec.ofNat 32 ((lowHalf (s.reg n)).toNat * (lowHalf (s.reg m)).toNat))).finish

/-- `MAC.L @Rm+,@Rn+` (R217 to R219, R222): the Rn operand is read first, and the Rm operand with the register already
incremented when m = n. -/
def execMacL (m n : Reg) (s : State) : Result :=
  s.onSh2 <|
  s.onAccess (s.readLong (s.reg n)) fun a =>
  let s1 := s.setReg n (s.reg n + 4)
  s.onAccess (s1.readLong (s1.reg m)) fun b =>
  .next ((s1.setReg m (s1.reg m + 4)).accumulateLong a b).finish

/-- `MAC.W @Rm+,@Rn+` (R217, R220 to R223). -/
def execMacW (m n : Reg) (s : State) : Result :=
  s.onAccess (s.readHalf (s.reg n)) fun a =>
  let s1 := s.setReg n (s.reg n + 2)
  s.onAccess (s1.readHalf (s1.reg m)) fun b =>
  let s2 := s1.setReg m (s1.reg m + 2)
  let p := a.toInt * b.toInt
  .next (if s.sBit then s2.accumulateHalfSaturating p else s2.accumulateHalf p).finish

end Sys2Proof.Machine
end

