-- ==== Sys2Proof/Machine/Shift.lean ====
section
/-! DEFINITION. The shift and rotate instructions (spec/44_shift.md). -/
namespace Sys2Proof.Machine

/-- The one-bit forms: a result in Rn, the bit shifted out in T (R261). -/
def State.shifted (s : State) (n : Reg) (v : Word) (out : Bool) : State := (s.setReg n v).setT out

/-- Bit 31, the "MSB" of R260. -/
def msb (v : Word) : Bool := v.getLsbD 31
/-- Bit 0, the "LSB" of R260. -/
def lsb (v : Word) : Bool := v.getLsbD 0
/-- One bit as a bit vector. -/
def oneBit (b : Bool) : BitVec 1 := BitVec.ofBool b

/-- `ROTL Rn` (R262). -/
def execRotl (n : Reg) (s : State) : Result :=
  .next (s.shifted n ((s.reg n).extractLsb' 0 31 ++ (s.reg n).extractLsb' 31 1) (msb (s.reg n))).finish
/-- `ROTR Rn` (R263). -/
def execRotr (n : Reg) (s : State) : Result :=
  .next (s.shifted n ((s.reg n).extractLsb' 0 1 ++ (s.reg n).extractLsb' 1 31) (lsb (s.reg n))).finish
/-- `ROTCL Rn` (R264). -/
def execRotcl (n : Reg) (s : State) : Result :=
  .next (s.shifted n ((s.reg n).extractLsb' 0 31 ++ oneBit s.tBit) (msb (s.reg n))).finish
/-- `ROTCR Rn` (R265). -/
def execRotcr (n : Reg) (s : State) : Result :=
  .next (s.shifted n (oneBit s.tBit ++ (s.reg n).extractLsb' 1 31) (lsb (s.reg n))).finish
/-- `SHAL Rn` (R266). -/
def execShal (n : Reg) (s : State) : Result := .next (s.shifted n (s.reg n <<< 1) (msb (s.reg n))).finish
/-- `SHAR Rn` (R267). -/
def execShar (n : Reg) (s : State) : Result :=
  .next (s.shifted n ((s.reg n).extractLsb' 31 1 ++ (s.reg n).extractLsb' 1 31) (lsb (s.reg n))).finish
/-- `SHLL Rn` (R268). -/
def execShll (n : Reg) (s : State) : Result := .next (s.shifted n (s.reg n <<< 1) (msb (s.reg n))).finish
/-- `SHLR Rn` (R269). -/
def execShlr (n : Reg) (s : State) : Result := .next (s.shifted n (s.reg n >>> 1) (lsb (s.reg n))).finish

/-- `SHLL2 Rn` (R270). -/
def execShll2 (n : Reg) (s : State) : Result := .next (s.setReg n (s.reg n <<< 2)).finish
/-- `SHLR2 Rn` (R273). -/
def execShlr2 (n : Reg) (s : State) : Result := .next (s.setReg n (s.reg n >>> 2)).finish
/-- `SHLL8 Rn` (R271). -/
def execShll8 (n : Reg) (s : State) : Result := .next (s.setReg n (s.reg n <<< 8)).finish
/-- `SHLR8 Rn` (R274). -/
def execShlr8 (n : Reg) (s : State) : Result := .next (s.setReg n (s.reg n >>> 8)).finish
/-- `SHLL16 Rn` (R272). -/
def execShll16 (n : Reg) (s : State) : Result := .next (s.setReg n (s.reg n <<< 16)).finish
/-- `SHLR16 Rn` (R275). -/
def execShlr16 (n : Reg) (s : State) : Result := .next (s.setReg n (s.reg n >>> 16)).finish

end Sys2Proof.Machine
end

