-- ==== Sys2Proof/Machine/SystemControl.lean ====
section
/-! DEFINITION. The system control instructions (spec/46_system_control.md). -/
namespace Sys2Proof.Machine

/-- `CLRT` (R311). -/
def execClrt (s : State) : Result := .next (s.setT false).finish
/-- `CLRMAC` (R313). -/
def execClrmac (s : State) : Result := .next (s.setMac 0).finish

/-- `LDC Rm,SR` (R316). -/
def execLdcSr (m : Reg) (s : State) : Result := .next (s.setSr (s.reg m)).finishInhibit
/-- `LDC Rm,GBR` (R317). -/
def execLdcGbr (m : Reg) (s : State) : Result := .next (s.setGbr (s.reg m)).finishInhibit
/-- `LDC Rm,VBR` (R318). -/
def execLdcVbr (m : Reg) (s : State) : Result := .next (s.setVbr (s.reg m)).finishInhibit
/-- `LDC.L @Rm+,SR` (R319). -/
def execLdcLSr (m : Reg) (s : State) : Result := s.popControl m State.setSr
/-- `LDC.L @Rm+,GBR` (R320). -/
def execLdcLGbr (m : Reg) (s : State) : Result := s.popControl m State.setGbr
/-- `LDC.L @Rm+,VBR` (R321). -/
def execLdcLVbr (m : Reg) (s : State) : Result := s.popControl m State.setVbr

/-- `LDS Rm,MACH` (R323). -/
def execLdsMach (m : Reg) (s : State) : Result := .next (s.setMach (s.reg m)).finishInhibit
/-- `LDS Rm,MACL` (R324). -/
def execLdsMacl (m : Reg) (s : State) : Result := .next (s.setMacl (s.reg m)).finishInhibit
/-- `LDS Rm,PR` (R325). -/
def execLdsPr (m : Reg) (s : State) : Result := .next (s.setPr (s.reg m)).finishInhibit
/-- `LDS.L @Rm+,MACH` (R326). -/
def execLdsLMach (m : Reg) (s : State) : Result := s.popControl m State.setMach
/-- `LDS.L @Rm+,MACL` (R327). -/
def execLdsLMacl (m : Reg) (s : State) : Result := s.popControl m State.setMacl
/-- `LDS.L @Rm+,PR` (R328). -/
def execLdsLPr (m : Reg) (s : State) : Result := s.popControl m State.setPr

/-- `NOP` (R314). -/
def execNop (s : State) : Result := .next s.finish
/-- `RTE` (R341), a slot illegal instruction in a delay slot (R284). -/
def execRte (s : State) : Result := s.outsideSlot s.returnFromException
/-- `SETT` (R312). -/
def execSett (s : State) : Result := .next (s.setT true).finish
/-- `SLEEP` (R342): the pc has already advanced, in a delay slot to the branch destination. -/
def execSleep (s : State) : Result := .next { s.finish with power := .sleep }

/-- `STC SR,Rn` (R329). -/
def execStcSr (n : Reg) (s : State) : Result := .next (s.setReg n s.sr).finishInhibit
/-- `STC GBR,Rn` (R330). -/
def execStcGbr (n : Reg) (s : State) : Result := .next (s.setReg n s.gbr).finishInhibit
/-- `STC VBR,Rn` (R331). -/
def execStcVbr (n : Reg) (s : State) : Result := .next (s.setReg n s.vbr).finishInhibit
/-- `STC.L SR,@-Rn` (R332). -/
def execStcLSr (n : Reg) (s : State) : Result := s.pushControl n s.sr
/-- `STC.L GBR,@-Rn` (R333). -/
def execStcLGbr (n : Reg) (s : State) : Result := s.pushControl n s.gbr
/-- `STC.L VBR,@-Rn` (R334). -/
def execStcLVbr (n : Reg) (s : State) : Result := s.pushControl n s.vbr

/-- `STS MACH,Rn` (R335). -/
def execStsMach (n : Reg) (s : State) : Result := .next (s.setReg n s.mach).finishInhibit
/-- `STS MACL,Rn` (R336). -/
def execStsMacl (n : Reg) (s : State) : Result := .next (s.setReg n s.macl).finishInhibit
/-- `STS PR,Rn` (R337). -/
def execStsPr (n : Reg) (s : State) : Result := .next (s.setReg n s.pr).finishInhibit
/-- `STS.L MACH,@-Rn` (R338). -/
def execStsLMach (n : Reg) (s : State) : Result := s.pushControl n s.mach
/-- `STS.L MACL,@-Rn` (R339). -/
def execStsLMacl (n : Reg) (s : State) : Result := s.pushControl n s.macl
/-- `STS.L PR,@-Rn` (R340). -/
def execStsLPr (n : Reg) (s : State) : Result := s.pushControl n s.pr

/-- `TRAPA #imm` (R343): the exception entry with the immediate as vector number, stacking the address of the next
instruction; SR stays.  A failing access of its own is an address error or the platform's refusal, with nothing
changed (R377).  A slot illegal instruction in a delay slot (R284). -/
def execTrapa (imm : BitVec 8) (s : State) : Result :=
  s.outsideSlot (s.onAccess (s.enterHandler imm (s.pc + 2) none) fun t => .next t)

end Sys2Proof.Machine
end

