-- ==== Sys2Proof/Syntax.lean ====
section
/-! DEFINITION. The instructions of the SH-1/SH-2 CPU: one constructor per row of spec/opcode_table.json
(spec/30_encoding.md R84: 142 forms on the SH-2).  Operands stand in the assembler's order, source before
destination (R113).  Register operands are the sixteen general registers (R81); immediates and displacements
are the unscaled field values (R85, R89). -/
namespace Sys2Proof

/-- One instruction of the SH-1/SH-2 CPU. -/
inductive Instr where
  /-- `MOV #imm,Rn`, R143. -/
  | movImm (imm : BitVec 8) (n : Reg)
  /-- `MOV.W @(disp,PC),Rn`, R144. -/
  | movWPc (disp : BitVec 8) (n : Reg)
  /-- `MOV.L @(disp,PC),Rn`, R145. -/
  | movLPc (disp : BitVec 8) (n : Reg)
  /-- `MOV Rm,Rn`, R122. -/
  | mov (m n : Reg)
  /-- `MOV.B Rm,@Rn`, R123. -/
  | movBStore (m n : Reg)
  /-- `MOV.W Rm,@Rn`, R124. -/
  | movWStore (m n : Reg)
  /-- `MOV.L Rm,@Rn`, R125. -/
  | movLStore (m n : Reg)
  /-- `MOV.B @Rm,Rn`, R126. -/
  | movBLoad (m n : Reg)
  /-- `MOV.W @Rm,Rn`, R127. -/
  | movWLoad (m n : Reg)
  /-- `MOV.L @Rm,Rn`, R128. -/
  | movLLoad (m n : Reg)
  /-- `MOV.B Rm,@-Rn`, R130. -/
  | movBStoreDec (m n : Reg)
  /-- `MOV.W Rm,@-Rn`, R131. -/
  | movWStoreDec (m n : Reg)
  /-- `MOV.L Rm,@-Rn`, R132. -/
  | movLStoreDec (m n : Reg)
  /-- `MOV.B @Rm+,Rn`, R134. -/
  | movBLoadInc (m n : Reg)
  /-- `MOV.W @Rm+,Rn`, R135. -/
  | movWLoadInc (m n : Reg)
  /-- `MOV.L @Rm+,Rn`, R136. -/
  | movLLoadInc (m n : Reg)
  /-- `MOV.B R0,@(disp,Rn)`, R154. -/
  | movBStoreDisp (disp : BitVec 4) (n : Reg)
  /-- `MOV.W R0,@(disp,Rn)`, R155. -/
  | movWStoreDisp (disp : BitVec 4) (n : Reg)
  /-- `MOV.L Rm,@(disp,Rn)`, R156. -/
  | movLStoreDisp (m : Reg) (disp : BitVec 4) (n : Reg)
  /-- `MOV.B @(disp,Rm),R0`, R157. -/
  | movBLoadDisp (disp : BitVec 4) (m : Reg)
  /-- `MOV.W @(disp,Rm),R0`, R158. -/
  | movWLoadDisp (disp : BitVec 4) (m : Reg)
  /-- `MOV.L @(disp,Rm),Rn`, R159. -/
  | movLLoadDisp (disp : BitVec 4) (m n : Reg)
  /-- `MOV.B Rm,@(R0,Rn)`, R137. -/
  | movBStoreIdx (m n : Reg)
  /-- `MOV.W Rm,@(R0,Rn)`, R138. -/
  | movWStoreIdx (m n : Reg)
  /-- `MOV.L Rm,@(R0,Rn)`, R139. -/
  | movLStoreIdx (m n : Reg)
  /-- `MOV.B @(R0,Rm),Rn`, R140. -/
  | movBLoadIdx (m n : Reg)
  /-- `MOV.W @(R0,Rm),Rn`, R141. -/
  | movWLoadIdx (m n : Reg)
  /-- `MOV.L @(R0,Rm),Rn`, R142. -/
  | movLLoadIdx (m n : Reg)
  /-- `MOV.B R0,@(disp,GBR)`, R150. -/
  | movBStoreGbr (disp : BitVec 8)
  /-- `MOV.W R0,@(disp,GBR)`, R151. -/
  | movWStoreGbr (disp : BitVec 8)
  /-- `MOV.L R0,@(disp,GBR)`, R152. -/
  | movLStoreGbr (disp : BitVec 8)
  /-- `MOV.B @(disp,GBR),R0`, R147. -/
  | movBLoadGbr (disp : BitVec 8)
  /-- `MOV.W @(disp,GBR),R0`, R148. -/
  | movWLoadGbr (disp : BitVec 8)
  /-- `MOV.L @(disp,GBR),R0`, R149. -/
  | movLLoadGbr (disp : BitVec 8)
  /-- `MOVA @(disp,PC),R0`, R161. -/
  | mova (disp : BitVec 8)
  /-- `MOVT Rn`, R162. -/
  | movt (n : Reg)
  /-- `SWAP.B Rm,Rn`, R163. -/
  | swapB (m n : Reg)
  /-- `SWAP.W Rm,Rn`, R164. -/
  | swapW (m n : Reg)
  /-- `XTRCT Rm,Rn`, R165. -/
  | xtrct (m n : Reg)
  /-- `ADD Rm,Rn`, R172. -/
  | add (m n : Reg)
  /-- `ADD #imm,Rn`, R173. -/
  | addImm (imm : BitVec 8) (n : Reg)
  /-- `ADDC Rm,Rn`, R174. -/
  | addc (m n : Reg)
  /-- `ADDV Rm,Rn`, R175. -/
  | addv (m n : Reg)
  /-- `CMP/EQ #imm,R0`, R185. -/
  | cmpEqImm (imm : BitVec 8)
  /-- `CMP/EQ Rm,Rn`, R177. -/
  | cmpEq (m n : Reg)
  /-- `CMP/HS Rm,Rn`, R178. -/
  | cmpHs (m n : Reg)
  /-- `CMP/GE Rm,Rn`, R179. -/
  | cmpGe (m n : Reg)
  /-- `CMP/HI Rm,Rn`, R180. -/
  | cmpHi (m n : Reg)
  /-- `CMP/GT Rm,Rn`, R181. -/
  | cmpGt (m n : Reg)
  /-- `CMP/PL Rn`, R182. -/
  | cmpPl (n : Reg)
  /-- `CMP/PZ Rn`, R183. -/
  | cmpPz (n : Reg)
  /-- `CMP/STR Rm,Rn`, R184. -/
  | cmpStr (m n : Reg)
  /-- `DIV1 Rm,Rn`, R188. -/
  | div1 (m n : Reg)
  /-- `DIV0S Rm,Rn`, R186. -/
  | div0s (m n : Reg)
  /-- `DIV0U`, R187. -/
  | div0u
  /-- `DMULS.L Rm,Rn`, R212, SH-2 only. -/
  | dmulsL (m n : Reg)
  /-- `DMULU.L Rm,Rn`, R213, SH-2 only. -/
  | dmuluL (m n : Reg)
  /-- `DT Rn`, R191, SH-2 only. -/
  | dt (n : Reg)
  /-- `EXTS.B Rm,Rn`, R192. -/
  | extsB (m n : Reg)
  /-- `EXTS.W Rm,Rn`, R193. -/
  | extsW (m n : Reg)
  /-- `EXTU.B Rm,Rn`, R194. -/
  | extuB (m n : Reg)
  /-- `EXTU.W Rm,Rn`, R195. -/
  | extuW (m n : Reg)
  /-- `MAC.L @Rm+,@Rn+`, R218, SH-2 only. -/
  | macL (m n : Reg)
  /-- `MAC.W @Rm+,@Rn+`, R220. -/
  | macW (m n : Reg)
  /-- `MUL.L Rm,Rn`, R214, SH-2 only. -/
  | mulL (m n : Reg)
  /-- `MULS.W Rm,Rn`, R215. -/
  | mulsW (m n : Reg)
  /-- `MULU.W Rm,Rn`, R216. -/
  | muluW (m n : Reg)
  /-- `NEG Rm,Rn`, R196. -/
  | neg (m n : Reg)
  /-- `NEGC Rm,Rn`, R197. -/
  | negc (m n : Reg)
  /-- `SUB Rm,Rn`, R198. -/
  | sub (m n : Reg)
  /-- `SUBC Rm,Rn`, R199. -/
  | subc (m n : Reg)
  /-- `SUBV Rm,Rn`, R200. -/
  | subv (m n : Reg)
  /-- `AND Rm,Rn`, R232. -/
  | and (m n : Reg)
  /-- `AND #imm,R0`, R233. -/
  | andImm (imm : BitVec 8)
  /-- `AND.B #imm,@(R0,GBR)`, R234. -/
  | andB (imm : BitVec 8)
  /-- `NOT Rm,Rn`, R235. -/
  | not (m n : Reg)
  /-- `OR Rm,Rn`, R236. -/
  | or (m n : Reg)
  /-- `OR #imm,R0`, R237. -/
  | orImm (imm : BitVec 8)
  /-- `OR.B #imm,@(R0,GBR)`, R238. -/
  | orB (imm : BitVec 8)
  /-- `TAS.B @Rn`, R239. -/
  | tasB (n : Reg)
  /-- `TST Rm,Rn`, R240. -/
  | tst (m n : Reg)
  /-- `TST #imm,R0`, R241. -/
  | tstImm (imm : BitVec 8)
  /-- `TST.B #imm,@(R0,GBR)`, R242. -/
  | tstB (imm : BitVec 8)
  /-- `XOR Rm,Rn`, R243. -/
  | xor (m n : Reg)
  /-- `XOR #imm,R0`, R244. -/
  | xorImm (imm : BitVec 8)
  /-- `XOR.B #imm,@(R0,GBR)`, R245. -/
  | xorB (imm : BitVec 8)
  /-- `ROTL Rn`, R262. -/
  | rotl (n : Reg)
  /-- `ROTR Rn`, R263. -/
  | rotr (n : Reg)
  /-- `ROTCL Rn`, R264. -/
  | rotcl (n : Reg)
  /-- `ROTCR Rn`, R265. -/
  | rotcr (n : Reg)
  /-- `SHAL Rn`, R266. -/
  | shal (n : Reg)
  /-- `SHAR Rn`, R267. -/
  | shar (n : Reg)
  /-- `SHLL Rn`, R268. -/
  | shll (n : Reg)
  /-- `SHLR Rn`, R269. -/
  | shlr (n : Reg)
  /-- `SHLL2 Rn`, R270. -/
  | shll2 (n : Reg)
  /-- `SHLR2 Rn`, R273. -/
  | shlr2 (n : Reg)
  /-- `SHLL8 Rn`, R271. -/
  | shll8 (n : Reg)
  /-- `SHLR8 Rn`, R274. -/
  | shlr8 (n : Reg)
  /-- `SHLL16 Rn`, R272. -/
  | shll16 (n : Reg)
  /-- `SHLR16 Rn`, R275. -/
  | shlr16 (n : Reg)
  /-- `BF label`, R287. -/
  | bf (disp : BitVec 8)
  /-- `BF/S label`, R288, SH-2 only. -/
  | bfS (disp : BitVec 8)
  /-- `BT label`, R289. -/
  | bt (disp : BitVec 8)
  /-- `BT/S label`, R290, SH-2 only. -/
  | btS (disp : BitVec 8)
  /-- `BRA label`, R291. -/
  | bra (disp : BitVec 12)
  /-- `BRAF Rm`, R292, SH-2 only. -/
  | braf (m : Reg)
  /-- `BSR label`, R293. -/
  | bsr (disp : BitVec 12)
  /-- `BSRF Rm`, R294, SH-2 only. -/
  | bsrf (m : Reg)
  /-- `JMP @Rm`, R295. -/
  | jmp (m : Reg)
  /-- `JSR @Rm`, R296. -/
  | jsr (m : Reg)
  /-- `RTS`, R297. -/
  | rts
  /-- `CLRT`, R311. -/
  | clrt
  /-- `CLRMAC`, R313. -/
  | clrmac
  /-- `LDC Rm,SR`, R316. -/
  | ldcSr (m : Reg)
  /-- `LDC Rm,GBR`, R317. -/
  | ldcGbr (m : Reg)
  /-- `LDC Rm,VBR`, R318. -/
  | ldcVbr (m : Reg)
  /-- `LDC.L @Rm+,SR`, R319. -/
  | ldcLSr (m : Reg)
  /-- `LDC.L @Rm+,GBR`, R320. -/
  | ldcLGbr (m : Reg)
  /-- `LDC.L @Rm+,VBR`, R321. -/
  | ldcLVbr (m : Reg)
  /-- `LDS Rm,MACH`, R323. -/
  | ldsMach (m : Reg)
  /-- `LDS Rm,MACL`, R324. -/
  | ldsMacl (m : Reg)
  /-- `LDS Rm,PR`, R325. -/
  | ldsPr (m : Reg)
  /-- `LDS.L @Rm+,MACH`, R326. -/
  | ldsLMach (m : Reg)
  /-- `LDS.L @Rm+,MACL`, R327. -/
  | ldsLMacl (m : Reg)
  /-- `LDS.L @Rm+,PR`, R328. -/
  | ldsLPr (m : Reg)
  /-- `NOP`, R314. -/
  | nop
  /-- `RTE`, R341. -/
  | rte
  /-- `SETT`, R312. -/
  | sett
  /-- `SLEEP`, R342. -/
  | sleep
  /-- `STC SR,Rn`, R329. -/
  | stcSr (n : Reg)
  /-- `STC GBR,Rn`, R330. -/
  | stcGbr (n : Reg)
  /-- `STC VBR,Rn`, R331. -/
  | stcVbr (n : Reg)
  /-- `STC.L SR,@-Rn`, R332. -/
  | stcLSr (n : Reg)
  /-- `STC.L GBR,@-Rn`, R333. -/
  | stcLGbr (n : Reg)
  /-- `STC.L VBR,@-Rn`, R334. -/
  | stcLVbr (n : Reg)
  /-- `STS MACH,Rn`, R335. -/
  | stsMach (n : Reg)
  /-- `STS MACL,Rn`, R336. -/
  | stsMacl (n : Reg)
  /-- `STS PR,Rn`, R337. -/
  | stsPr (n : Reg)
  /-- `STS.L MACH,@-Rn`, R338. -/
  | stsLMach (n : Reg)
  /-- `STS.L MACL,@-Rn`, R339. -/
  | stsLMacl (n : Reg)
  /-- `STS.L PR,@-Rn`, R340. -/
  | stsLPr (n : Reg)
  /-- `TRAPA #imm`, R343. -/
  | trapa (imm : BitVec 8)
  deriving DecidableEq, Repr

end Sys2Proof
end

