-- ==== Sys2Proof/WellFormed.lean ====
section
/-! DEFINITION. Which instructions a CPU has (spec/30_encoding.md R108, spec/00_scope.md R5).  The operand types of
Instr admit exactly the values of the encoding's fields (R111: register fields accept all sixteen values), so the
one thing left to check is that the instruction exists on the CPU at hand. -/
namespace Sys2Proof

/-- The nine instructions that exist on the SH-2 only (R5, R108). -/
def Instr.sh2Only : Instr → Bool
  | .bfS _ | .btS _ | .braf _ | .bsrf _ | .dt _ => true
  | .mulL _ _ | .dmulsL _ _ | .dmuluL _ _ | .macL _ _ => true
  | _ => false

/-- The instruction exists on the CPU. -/
def Instr.wellFormed (cpu : Cpu) (i : Instr) : Bool :=
  match cpu with
  | .sh1 => !i.sh2Only
  | .sh2 => true

end Sys2Proof
end

