-- ==== Sys2Proof/Decode.lean ====
section
/-! DEFINITION. The decoder, total on any bytes and written from the operation code map of
spec/30_encoding.md R103 to R107, and after it the encoder, written from the codes of the instruction tables
(spec/opcode_table.json, R116).  A code that no row assigns is rejected by name (R108, R109). -/
namespace Sys2Proof

/-- Why a code is not an instruction. -/
inductive DecodeError where
  /-- Fewer than the two bytes of an instruction code (R80). -/
  | truncated
  /-- A code not assigned as an instruction on either CPU (R109). -/
  | unassigned (code : Half)
  /-- A code that only the SH-2 has, on the SH-1 (R108). -/
  | notOnThisCpu (code : Half)
  deriving DecidableEq, Repr

/-- The general register a 4-bit field names (R81). -/
def Reg.ofField (f : BitVec 4) : Reg := ⟨f.toNat, f.isLt⟩

/-- The 4-bit field that names a general register (R81). -/
def Reg.toField (r : Reg) : BitVec 4 := BitVec.ofNatLT r.val r.isLt

/-- A code from its four digits, bits 15 to 12 first. -/
def code (a b c d : BitVec 4) : Half := a ++ b ++ c ++ d

/-- Group 0000 (R104): decoded on bits 3 to 0, then on bits 7 to 4.  In the rows of the n and 0 formats `c` is a
function code; the 0-format instructions fix bits 11 to 8 to 0000. -/
def decodeGroup0 (b c d : BitVec 4) : Option Instr :=
  let r := Reg.ofField b
  let m := Reg.ofField c
  match d.toNat with
  | 0x2 =>
    match c.toNat with
    | 0 => some (.stcSr r)
    | 1 => some (.stcGbr r)
    | 2 => some (.stcVbr r)
    | _ => none
  | 0x3 =>
    match c.toNat with
    | 0 => some (.bsrf r)
    | 2 => some (.braf r)
    | _ => none
  | 0x4 => some (.movBStoreIdx m r)
  | 0x5 => some (.movWStoreIdx m r)
  | 0x6 => some (.movLStoreIdx m r)
  | 0x7 => some (.mulL m r)
  | 0x8 =>
    match b.toNat, c.toNat with
    | 0, 0 => some .clrt
    | 0, 1 => some .sett
    | 0, 2 => some .clrmac
    | _, _ => none
  | 0x9 =>
    match b.toNat, c.toNat with
    | 0, 0 => some .nop
    | 0, 1 => some .div0u
    | _, 2 => some (.movt r)
    | _, _ => none
  | 0xA =>
    match c.toNat with
    | 0 => some (.stsMach r)
    | 1 => some (.stsMacl r)
    | 2 => some (.stsPr r)
    | _ => none
  | 0xB =>
    match b.toNat, c.toNat with
    | 0, 0 => some .rts
    | 0, 1 => some .sleep
    | 0, 2 => some .rte
    | _, _ => none
  | 0xC => some (.movBLoadIdx m r)
  | 0xD => some (.movWLoadIdx m r)
  | 0xE => some (.movLLoadIdx m r)
  | 0xF => some (.macL m r)
  | _ => none

/-- Group 0010 (R106). -/
def decodeGroup2 (b c d : BitVec 4) : Option Instr :=
  let n := Reg.ofField b
  let m := Reg.ofField c
  match d.toNat with
  | 0x0 => some (.movBStore m n)
  | 0x1 => some (.movWStore m n)
  | 0x2 => some (.movLStore m n)
  | 0x4 => some (.movBStoreDec m n)
  | 0x5 => some (.movWStoreDec m n)
  | 0x6 => some (.movLStoreDec m n)
  | 0x7 => some (.div0s m n)
  | 0x8 => some (.tst m n)
  | 0x9 => some (.and m n)
  | 0xA => some (.xor m n)
  | 0xB => some (.or m n)
  | 0xC => some (.cmpStr m n)
  | 0xD => some (.xtrct m n)
  | 0xE => some (.muluW m n)
  | 0xF => some (.mulsW m n)
  | _ => none

/-- Group 0011 (R106). -/
def decodeGroup3 (b c d : BitVec 4) : Option Instr :=
  let n := Reg.ofField b
  let m := Reg.ofField c
  match d.toNat with
  | 0x0 => some (.cmpEq m n)
  | 0x2 => some (.cmpHs m n)
  | 0x3 => some (.cmpGe m n)
  | 0x4 => some (.div1 m n)
  | 0x5 => some (.dmuluL m n)
  | 0x6 => some (.cmpHi m n)
  | 0x7 => some (.cmpGt m n)
  | 0x8 => some (.sub m n)
  | 0xA => some (.subc m n)
  | 0xB => some (.subv m n)
  | 0xC => some (.add m n)
  | 0xD => some (.dmulsL m n)
  | 0xE => some (.addc m n)
  | 0xF => some (.addv m n)
  | _ => none

/-- Group 0100, bits 7 to 4 = 0000 (R105). -/
def decodeGroup4F0 (b d : BitVec 4) : Option Instr :=
  let r := Reg.ofField b
  match d.toNat with
  | 0x0 => some (.shll r)
  | 0x1 => some (.shlr r)
  | 0x2 => some (.stsLMach r)
  | 0x3 => some (.stcLSr r)
  | 0x4 => some (.rotl r)
  | 0x5 => some (.rotr r)
  | 0x6 => some (.ldsLMach r)
  | 0x7 => some (.ldcLSr r)
  | 0x8 => some (.shll2 r)
  | 0x9 => some (.shlr2 r)
  | 0xA => some (.ldsMach r)
  | 0xB => some (.jsr r)
  | 0xE => some (.ldcSr r)
  | _ => none

/-- Group 0100, bits 7 to 4 = 0001 (R105). -/
def decodeGroup4F1 (b d : BitVec 4) : Option Instr :=
  let r := Reg.ofField b
  match d.toNat with
  | 0x0 => some (.dt r)
  | 0x1 => some (.cmpPz r)
  | 0x2 => some (.stsLMacl r)
  | 0x3 => some (.stcLGbr r)
  | 0x5 => some (.cmpPl r)
  | 0x6 => some (.ldsLMacl r)
  | 0x7 => some (.ldcLGbr r)
  | 0x8 => some (.shll8 r)
  | 0x9 => some (.shlr8 r)
  | 0xA => some (.ldsMacl r)
  | 0xB => some (.tasB r)
  | 0xE => some (.ldcGbr r)
  | _ => none

/-- Group 0100, bits 7 to 4 = 0010 (R105). -/
def decodeGroup4F2 (b d : BitVec 4) : Option Instr :=
  let r := Reg.ofField b
  match d.toNat with
  | 0x0 => some (.shal r)
  | 0x1 => some (.shar r)
  | 0x2 => some (.stsLPr r)
  | 0x3 => some (.stcLVbr r)
  | 0x4 => some (.rotcl r)
  | 0x5 => some (.rotcr r)
  | 0x6 => some (.ldsLPr r)
  | 0x7 => some (.ldcLVbr r)
  | 0x8 => some (.shll16 r)
  | 0x9 => some (.shlr16 r)
  | 0xA => some (.ldsPr r)
  | 0xB => some (.jmp r)
  | 0xE => some (.ldcVbr r)
  | _ => none

/-- Group 0100 (R105): MAC.W when bits 3 to 0 are 1111, otherwise decoded on bits 7 to 0. -/
def decodeGroup4 (b c d : BitVec 4) : Option Instr :=
  match d.toNat with
  | 0xF => some (.macW (Reg.ofField c) (Reg.ofField b))
  | _ =>
    match c.toNat with
    | 0 => decodeGroup4F0 b d
    | 1 => decodeGroup4F1 b d
    | 2 => decodeGroup4F2 b d
    | _ => none

/-- Group 0110 (R106). -/
def decodeGroup6 (b c d : BitVec 4) : Option Instr :=
  let n := Reg.ofField b
  let m := Reg.ofField c
  match d.toNat with
  | 0x0 => some (.movBLoad m n)
  | 0x1 => some (.movWLoad m n)
  | 0x2 => some (.movLLoad m n)
  | 0x3 => some (.mov m n)
  | 0x4 => some (.movBLoadInc m n)
  | 0x5 => some (.movWLoadInc m n)
  | 0x6 => some (.movLLoadInc m n)
  | 0x7 => some (.not m n)
  | 0x8 => some (.swapB m n)
  | 0x9 => some (.swapW m n)
  | 0xA => some (.negc m n)
  | 0xB => some (.neg m n)
  | 0xC => some (.extuB m n)
  | 0xD => some (.extuW m n)
  | 0xE => some (.extsB m n)
  | 0xF => some (.extsW m n)
  | _ => none

/-- Group 1000 (R107), decoded on bits 11 to 8; in the nd4 and md formats the register field is bits 7 to 4. -/
def decodeGroup8 (b c d : BitVec 4) : Option Instr :=
  let r := Reg.ofField c
  match b.toNat with
  | 0x0 => some (.movBStoreDisp d r)
  | 0x1 => some (.movWStoreDisp d r)
  | 0x4 => some (.movBLoadDisp d r)
  | 0x5 => some (.movWLoadDisp d r)
  | 0x8 => some (.cmpEqImm (c ++ d))
  | 0x9 => some (.bt (c ++ d))
  | 0xB => some (.bf (c ++ d))
  | 0xD => some (.btS (c ++ d))
  | 0xF => some (.bfS (c ++ d))
  | _ => none

/-- Group 1100 (R107), decoded on bits 11 to 8; every code is assigned. -/
def decodeGroupC (b c d : BitVec 4) : Option Instr :=
  match b.toNat with
  | 0x0 => some (.movBStoreGbr (c ++ d))
  | 0x1 => some (.movWStoreGbr (c ++ d))
  | 0x2 => some (.movLStoreGbr (c ++ d))
  | 0x3 => some (.trapa (c ++ d))
  | 0x4 => some (.movBLoadGbr (c ++ d))
  | 0x5 => some (.movWLoadGbr (c ++ d))
  | 0x6 => some (.movLLoadGbr (c ++ d))
  | 0x7 => some (.mova (c ++ d))
  | 0x8 => some (.tstImm (c ++ d))
  | 0x9 => some (.andImm (c ++ d))
  | 0xA => some (.xorImm (c ++ d))
  | 0xB => some (.orImm (c ++ d))
  | 0xC => some (.tstB (c ++ d))
  | 0xD => some (.andB (c ++ d))
  | 0xE => some (.xorB (c ++ d))
  | 0xF => some (.orB (c ++ d))
  | _ => none

/-- The operation code map (R103): decoding starts from bits 15 to 12. -/
def decodeDigits (a b c d : BitVec 4) : Option Instr :=
  match a.toNat with
  | 0x0 => decodeGroup0 b c d
  | 0x1 => some (.movLStoreDisp (Reg.ofField c) d (Reg.ofField b))
  | 0x2 => decodeGroup2 b c d
  | 0x3 => decodeGroup3 b c d
  | 0x4 => decodeGroup4 b c d
  | 0x5 => some (.movLLoadDisp d (Reg.ofField c) (Reg.ofField b))
  | 0x6 => decodeGroup6 b c d
  | 0x7 => some (.addImm (c ++ d) (Reg.ofField b))
  | 0x8 => decodeGroup8 b c d
  | 0x9 => some (.movWPc (c ++ d) (Reg.ofField b))
  | 0xA => some (.bra (b ++ c ++ d))
  | 0xB => some (.bsr (b ++ c ++ d))
  | 0xC => decodeGroupC b c d
  | 0xD => some (.movLPc (c ++ d) (Reg.ofField b))
  | 0xE => some (.movImm (c ++ d) (Reg.ofField b))
  | _ => none

/-- The instruction a code means on a CPU (R108): on the SH-1 the codes of the nine SH-2 instructions are not
assigned. -/
def decodeWord (cpu : Cpu) (w : Half) : Except DecodeError Instr :=
  match decodeDigits (w.extractLsb' 12 4) (w.extractLsb' 8 4) (w.extractLsb' 4 4) (w.extractLsb' 0 4) with
  | none => .error (.unassigned w)
  | some i => if i.wellFormed cpu then .ok i else .error (.notOnThisCpu w)

/-- Decode the instruction at the head of a list of bytes, the most significant byte first (R52, R80); the rest of
the bytes comes back with it. -/
def decode (cpu : Cpu) (bytes : List Byte) : Except DecodeError (Instr × List Byte) :=
  match bytes with
  | hi :: lo :: rest =>
    match decodeWord cpu (hi ++ lo) with
    | .ok i => .ok (i, rest)
    | .error e => .error e
  | _ => .error .truncated

/-- The code of an instruction (spec/opcode_table.json: the row's fixed digits and its fields). -/
def encodeWord (i : Instr) : Half :=
  match i with
  | .movImm imm n => code 0xE n.toField (imm.extractLsb' 4 4) (imm.extractLsb' 0 4)
  | .movWPc disp n => code 0x9 n.toField (disp.extractLsb' 4 4) (disp.extractLsb' 0 4)
  | .movLPc disp n => code 0xD n.toField (disp.extractLsb' 4 4) (disp.extractLsb' 0 4)
  | .mov m n => code 0x6 n.toField m.toField 0x3
  | .movBStore m n => code 0x2 n.toField m.toField 0x0
  | .movWStore m n => code 0x2 n.toField m.toField 0x1
  | .movLStore m n => code 0x2 n.toField m.toField 0x2
  | .movBLoad m n => code 0x6 n.toField m.toField 0x0
  | .movWLoad m n => code 0x6 n.toField m.toField 0x1
  | .movLLoad m n => code 0x6 n.toField m.toField 0x2
  | .movBStoreDec m n => code 0x2 n.toField m.toField 0x4
  | .movWStoreDec m n => code 0x2 n.toField m.toField 0x5
  | .movLStoreDec m n => code 0x2 n.toField m.toField 0x6
  | .movBLoadInc m n => code 0x6 n.toField m.toField 0x4
  | .movWLoadInc m n => code 0x6 n.toField m.toField 0x5
  | .movLLoadInc m n => code 0x6 n.toField m.toField 0x6
  | .movBStoreDisp disp n => code 0x8 0x0 n.toField disp
  | .movWStoreDisp disp n => code 0x8 0x1 n.toField disp
  | .movLStoreDisp m disp n => code 0x1 n.toField m.toField disp
  | .movBLoadDisp disp m => code 0x8 0x4 m.toField disp
  | .movWLoadDisp disp m => code 0x8 0x5 m.toField disp
  | .movLLoadDisp disp m n => code 0x5 n.toField m.toField disp
  | .movBStoreIdx m n => code 0x0 n.toField m.toField 0x4
  | .movWStoreIdx m n => code 0x0 n.toField m.toField 0x5
  | .movLStoreIdx m n => code 0x0 n.toField m.toField 0x6
  | .movBLoadIdx m n => code 0x0 n.toField m.toField 0xC
  | .movWLoadIdx m n => code 0x0 n.toField m.toField 0xD
  | .movLLoadIdx m n => code 0x0 n.toField m.toField 0xE
  | .movBStoreGbr disp => code 0xC 0x0 (disp.extractLsb' 4 4) (disp.extractLsb' 0 4)
  | .movWStoreGbr disp => code 0xC 0x1 (disp.extractLsb' 4 4) (disp.extractLsb' 0 4)
  | .movLStoreGbr disp => code 0xC 0x2 (disp.extractLsb' 4 4) (disp.extractLsb' 0 4)
  | .movBLoadGbr disp => code 0xC 0x4 (disp.extractLsb' 4 4) (disp.extractLsb' 0 4)
  | .movWLoadGbr disp => code 0xC 0x5 (disp.extractLsb' 4 4) (disp.extractLsb' 0 4)
  | .movLLoadGbr disp => code 0xC 0x6 (disp.extractLsb' 4 4) (disp.extractLsb' 0 4)
  | .mova disp => code 0xC 0x7 (disp.extractLsb' 4 4) (disp.extractLsb' 0 4)
  | .movt n => code 0x0 n.toField 0x2 0x9
  | .swapB m n => code 0x6 n.toField m.toField 0x8
  | .swapW m n => code 0x6 n.toField m.toField 0x9
  | .xtrct m n => code 0x2 n.toField m.toField 0xD
  | .add m n => code 0x3 n.toField m.toField 0xC
  | .addImm imm n => code 0x7 n.toField (imm.extractLsb' 4 4) (imm.extractLsb' 0 4)
  | .addc m n => code 0x3 n.toField m.toField 0xE
  | .addv m n => code 0x3 n.toField m.toField 0xF
  | .cmpEqImm imm => code 0x8 0x8 (imm.extractLsb' 4 4) (imm.extractLsb' 0 4)
  | .cmpEq m n => code 0x3 n.toField m.toField 0x0
  | .cmpHs m n => code 0x3 n.toField m.toField 0x2
  | .cmpGe m n => code 0x3 n.toField m.toField 0x3
  | .cmpHi m n => code 0x3 n.toField m.toField 0x6
  | .cmpGt m n => code 0x3 n.toField m.toField 0x7
  | .cmpPl n => code 0x4 n.toField 0x1 0x5
  | .cmpPz n => code 0x4 n.toField 0x1 0x1
  | .cmpStr m n => code 0x2 n.toField m.toField 0xC
  | .div1 m n => code 0x3 n.toField m.toField 0x4
  | .div0s m n => code 0x2 n.toField m.toField 0x7
  | .div0u => code 0x0 0x0 0x1 0x9
  | .dmulsL m n => code 0x3 n.toField m.toField 0xD
  | .dmuluL m n => code 0x3 n.toField m.toField 0x5
  | .dt n => code 0x4 n.toField 0x1 0x0
  | .extsB m n => code 0x6 n.toField m.toField 0xE
  | .extsW m n => code 0x6 n.toField m.toField 0xF
  | .extuB m n => code 0x6 n.toField m.toField 0xC
  | .extuW m n => code 0x6 n.toField m.toField 0xD
  | .macL m n => code 0x0 n.toField m.toField 0xF
  | .macW m n => code 0x4 n.toField m.toField 0xF
  | .mulL m n => code 0x0 n.toField m.toField 0x7
  | .mulsW m n => code 0x2 n.toField m.toField 0xF
  | .muluW m n => code 0x2 n.toField m.toField 0xE
  | .neg m n => code 0x6 n.toField m.toField 0xB
  | .negc m n => code 0x6 n.toField m.toField 0xA
  | .sub m n => code 0x3 n.toField m.toField 0x8
  | .subc m n => code 0x3 n.toField m.toField 0xA
  | .subv m n => code 0x3 n.toField m.toField 0xB
  | .and m n => code 0x2 n.toField m.toField 0x9
  | .andImm imm => code 0xC 0x9 (imm.extractLsb' 4 4) (imm.extractLsb' 0 4)
  | .andB imm => code 0xC 0xD (imm.extractLsb' 4 4) (imm.extractLsb' 0 4)
  | .not m n => code 0x6 n.toField m.toField 0x7
  | .or m n => code 0x2 n.toField m.toField 0xB
  | .orImm imm => code 0xC 0xB (imm.extractLsb' 4 4) (imm.extractLsb' 0 4)
  | .orB imm => code 0xC 0xF (imm.extractLsb' 4 4) (imm.extractLsb' 0 4)
  | .tasB n => code 0x4 n.toField 0x1 0xB
  | .tst m n => code 0x2 n.toField m.toField 0x8
  | .tstImm imm => code 0xC 0x8 (imm.extractLsb' 4 4) (imm.extractLsb' 0 4)
  | .tstB imm => code 0xC 0xC (imm.extractLsb' 4 4) (imm.extractLsb' 0 4)
  | .xor m n => code 0x2 n.toField m.toField 0xA
  | .xorImm imm => code 0xC 0xA (imm.extractLsb' 4 4) (imm.extractLsb' 0 4)
  | .xorB imm => code 0xC 0xE (imm.extractLsb' 4 4) (imm.extractLsb' 0 4)
  | .rotl n => code 0x4 n.toField 0x0 0x4
  | .rotr n => code 0x4 n.toField 0x0 0x5
  | .rotcl n => code 0x4 n.toField 0x2 0x4
  | .rotcr n => code 0x4 n.toField 0x2 0x5
  | .shal n => code 0x4 n.toField 0x2 0x0
  | .shar n => code 0x4 n.toField 0x2 0x1
  | .shll n => code 0x4 n.toField 0x0 0x0
  | .shlr n => code 0x4 n.toField 0x0 0x1
  | .shll2 n => code 0x4 n.toField 0x0 0x8
  | .shlr2 n => code 0x4 n.toField 0x0 0x9
  | .shll8 n => code 0x4 n.toField 0x1 0x8
  | .shlr8 n => code 0x4 n.toField 0x1 0x9
  | .shll16 n => code 0x4 n.toField 0x2 0x8
  | .shlr16 n => code 0x4 n.toField 0x2 0x9
  | .bf disp => code 0x8 0xB (disp.extractLsb' 4 4) (disp.extractLsb' 0 4)
  | .bfS disp => code 0x8 0xF (disp.extractLsb' 4 4) (disp.extractLsb' 0 4)
  | .bt disp => code 0x8 0x9 (disp.extractLsb' 4 4) (disp.extractLsb' 0 4)
  | .btS disp => code 0x8 0xD (disp.extractLsb' 4 4) (disp.extractLsb' 0 4)
  | .bra disp => code 0xA (disp.extractLsb' 8 4) (disp.extractLsb' 4 4) (disp.extractLsb' 0 4)
  | .braf m => code 0x0 m.toField 0x2 0x3
  | .bsr disp => code 0xB (disp.extractLsb' 8 4) (disp.extractLsb' 4 4) (disp.extractLsb' 0 4)
  | .bsrf m => code 0x0 m.toField 0x0 0x3
  | .jmp m => code 0x4 m.toField 0x2 0xB
  | .jsr m => code 0x4 m.toField 0x0 0xB
  | .rts => code 0x0 0x0 0x0 0xB
  | .clrt => code 0x0 0x0 0x0 0x8
  | .clrmac => code 0x0 0x0 0x2 0x8
  | .ldcSr m => code 0x4 m.toField 0x0 0xE
  | .ldcGbr m => code 0x4 m.toField 0x1 0xE
  | .ldcVbr m => code 0x4 m.toField 0x2 0xE
  | .ldcLSr m => code 0x4 m.toField 0x0 0x7
  | .ldcLGbr m => code 0x4 m.toField 0x1 0x7
  | .ldcLVbr m => code 0x4 m.toField 0x2 0x7
  | .ldsMach m => code 0x4 m.toField 0x0 0xA
  | .ldsMacl m => code 0x4 m.toField 0x1 0xA
  | .ldsPr m => code 0x4 m.toField 0x2 0xA
  | .ldsLMach m => code 0x4 m.toField 0x0 0x6
  | .ldsLMacl m => code 0x4 m.toField 0x1 0x6
  | .ldsLPr m => code 0x4 m.toField 0x2 0x6
  | .nop => code 0x0 0x0 0x0 0x9
  | .rte => code 0x0 0x0 0x2 0xB
  | .sett => code 0x0 0x0 0x1 0x8
  | .sleep => code 0x0 0x0 0x1 0xB
  | .stcSr n => code 0x0 n.toField 0x0 0x2
  | .stcGbr n => code 0x0 n.toField 0x1 0x2
  | .stcVbr n => code 0x0 n.toField 0x2 0x2
  | .stcLSr n => code 0x4 n.toField 0x0 0x3
  | .stcLGbr n => code 0x4 n.toField 0x1 0x3
  | .stcLVbr n => code 0x4 n.toField 0x2 0x3
  | .stsMach n => code 0x0 n.toField 0x0 0xA
  | .stsMacl n => code 0x0 n.toField 0x1 0xA
  | .stsPr n => code 0x0 n.toField 0x2 0xA
  | .stsLMach n => code 0x4 n.toField 0x0 0x2
  | .stsLMacl n => code 0x4 n.toField 0x1 0x2
  | .stsLPr n => code 0x4 n.toField 0x2 0x2
  | .trapa imm => code 0xC 0x3 (imm.extractLsb' 4 4) (imm.extractLsb' 0 4)

/-- The words of an instruction: one (R80). -/
def encode (i : Instr) : List Half := [encodeWord i]

/-- The bytes of an instruction in memory order, the most significant byte first (R52). -/
def encodeBytes (i : Instr) : List Byte :=
  [(encodeWord i).extractLsb' 8 8, (encodeWord i).extractLsb' 0 8]

/-- The instruction the decoder reads from a row of the opcode table whose `nbits` bits are `w`: the word is laid
out as the hardware stores it and given to the decoder, on the CPU that has every row (R84). -/
def decodeTableWord (nbits w : Nat) : Option Instr :=
  let v := BitVec.ofNat 16 (w % 2 ^ nbits)
  match decode .sh2 [v.extractLsb' 8 8, v.extractLsb' 0 8] with
  | .ok (i, _) => some i
  | .error _ => none

end Sys2Proof
end

