-- ==== Sys2Proof/Machine/Fetch.lean ====
section
/-! DEFINITION. The instruction fetch (spec/20_memory.md R54, R66, R71) and the layout of an instruction code in
memory (R52, R80). -/
namespace Sys2Proof.Machine

/-- The store covers the word at `a` (U6). -/
def StoreRecord.covers (r : StoreRecord) (a : Word) : Bool :=
  decide (r.addr.toNat < a.toNat + 2) && decide (a.toNat < r.addr.toNat + r.bytes)

/-- The word at `a` was stored to by one of the last three instructions (R66, U6). -/
def State.stale (s : State) (a : Word) : Bool := s.recentStores.any fun r => r.covers a

/-- The record one instruction later. -/
def ageRecords : List StoreRecord → List StoreRecord
  | [] => []
  | r :: rest => if r.left ≤ 1 then ageRecords rest else { r with left := r.left - 1 } :: ageRecords rest

/-- One instruction less until the recent stores are seen by the fetch (R66). -/
def State.ageStores (s : State) : State := { s with recentStores := ageRecords s.recentStores }

/-- The fetch at `pc` (R54): an odd address is an address error; then the platform may refuse (R71), a little-endian
region is not described (R57, U12), and a word stored to within the last three instructions has no defined content
(R66, U6). -/
def State.fetch (s : State) : Fetched :=
  if alignedHalf s.pc then
    if memAdmits s.cfg s.pc 2 .fetch then
      if littleEndian s.cfg s.pc then .refused (.littleEndianFetch s.pc)
      else if s.stale s.pc then .fault (.staleFetch s.pc)
      else .code (s.mem.half false s.pc)
    else .fault (.notAdmitted .fetch s.pc)
  else .addressError

/-- The state with an instruction code stored at `pc`, awake, with no reset and no request offered and no recent
store, so that the next step fetches and runs it (log 31). -/
def State.placeCode (s : State) (w : Half) : State :=
  { s with
    mem := s.mem.setHalf false s.pc w
    power := .run
    resetRequest := none
    pending := []
    recentStores := [] }

end Sys2Proof.Machine
end

