-- ==== Sys2Proof/Machine/Interrupt.lean ====
section
/-! DEFINITION. Interrupts (spec/60_exceptions.md R373 to R378), sleep (R392) and reset
(spec/70_reset_and_hazards.md R400 to R403). -/
namespace Sys2Proof.Machine

/-- The acceptance condition (R374): outside the inhibited windows, and NMI or above the mask. -/
def State.acceptable (s : State) (q : IntRequest) : Bool :=
  !s.intInhibit && s.delayTarget.isNone && (q.level.val == 16 || decide (q.level.val > s.imask.toNat))

/-- The request of the highest level; among equal levels the first in the platform's order (R376, R377). -/
def highest : List IntRequest → Option IntRequest
  | [] => none
  | q :: rest =>
    match highest rest with
    | none => some q
    | some r => if r.level.val > q.level.val then some r else some q

/-- The requests that are acceptable at this boundary (R374), in the platform's order. -/
def State.acceptableRequests (s : State) : List IntRequest := s.pending.filter s.acceptable

/-- The request that would be accepted at this boundary (R376). -/
def State.bestRequest (s : State) : Option IntRequest := highest s.acceptableRequests

/-- The request by which the platform offers an NMI (R373): level 16 and the vector number of the launch. -/
def nmiRequest (c : Config) (source : Nat) : IntRequest := ⟨source, 16, c.vecNmi⟩

/-- The request by which the platform offers a user break (R373): level 15 and the vector number of the launch. -/
def userBreakRequest (c : Config) (source : Nat) : IntRequest := ⟨source, 15, c.vecUserBreak⟩

/-- The level written into the mask on acceptance: 15 for NMI (R376). -/
def maskLevel (l : Fin 17) : BitVec 4 := BitVec.ofNat 4 (min l.val 15)

/-- The request is reported to the platform as accepted (R376); whether the platform then withdraws it is a free
value (R373, log 9). -/
def State.reportAccepted (s : State) (q : IntRequest) : State :=
  { s with
    pending := if Config.requestWithdrawn s.acceptedCount then s.pending.erase q else s.pending
    lastAccepted := some q
    acceptedCount := s.acceptedCount + 1
    passedCount := 0
    waits := [] }

/-- The accept step (R376): exception entry with the address of the instruction not yet executed, and the mask raised
to the level. -/
def State.acceptInterrupt (s : State) (q : IntRequest) : Result :=
  (s.reportAccepted q).exceptionEntry q.vec s.pc (some (maskLevel q.level))

/-- How long a request has waited: 0 when it is not listed. -/
def waitOf : List (IntRequest × Nat) → IntRequest → Nat
  | [], _ => 0
  | (r, n) :: rest, q => if r = q then n else waitOf rest q

/-- An acceptable request has waited, acceptable all the time, for as long as it can (R375). -/
def State.acceptanceDue (s : State) : Bool :=
  s.acceptableRequests.any fun q => decide (Config.acceptDelay s.acceptedCount ≤ waitOf s.waits q)

/-- The request accepted at this boundary, if any.  Both acceptance and one more instruction are enabled (R375): a free
value chooses, except that a request which stays acceptable is not passed over for ever (log 8). -/
def State.acceptedNow (s : State) : Option IntRequest :=
  match s.bestRequest with
  | none => none
  | some q => if Config.acceptHere s.acceptedCount s.passedCount || s.acceptanceDue then some q else none

/-- A boundary that is passed over (R375): every acceptable request has waited once more, one that is not acceptable
starts again. -/
def State.passBoundary (s : State) : State :=
  { s with
    passedCount := if s.acceptableRequests.isEmpty then s.passedCount else s.passedCount + 1
    waits := s.acceptableRequests.map fun q => (q, waitOf s.waits q + 1) }

/-- Asleep, the only step is the acceptance of an interrupt (R375, R392); without an acceptable request the CPU waits
and nothing changes (log 10). -/
def State.sleepStep (s : State) : Result :=
  match s.bestRequest with
  | some q => s.acceptInterrupt q
  | none => .next s

/-- The address of the longword that holds the initial PC; that of the initial R15 follows it (R402, R403, log 3). -/
def resetVector (k : ResetKind) : Word :=
  match k with
  | .powerOn => 0
  | .manual => 8

/-- Where the launch lets this reset take PC and R15 from (R402, R403). -/
def resetSource (c : Config) (k : ResetKind) : ResetSource :=
  match k with
  | .powerOn => c.powerOnReset
  | .manual => c.manualReset

/-- `reset_pc` and `reset_sp` (R402, R403): the values of the launch, or the longwords of the vector table, read
big-endian, if the platform admits both reads. -/
def State.resetValues (s : State) (k : ResetKind) : Option (Word × Word) :=
  let a := resetVector k
  match resetSource s.cfg k, memAdmits s.cfg a 4 .read && memAdmits s.cfg (a + 4) 4 .read with
  | .values pc sp, _ => some (pc, sp)
  | .table, true => some (s.mem.long false a, s.mem.long false (a + 4))
  | .table, false => none

/-- The reset step (R400): PC and R15 are `reset_pc` and `reset_sp`, memory and the platform's side stay, and every
other register takes its reset value. -/
def State.takeReset (s : State) (k : ResetKind) : Result :=
  match s.resetValues k with
  | some (pc, sp) =>
    .next { State.reset.setReg 15 sp with
      pc := pc
      mem := s.mem
      pending := s.pending
      lastAccepted := s.lastAccepted
      acceptedCount := s.acceptedCount
      passedCount := s.passedCount
      waits := s.waits
      cfg := s.cfg }
  | none => .refused .noResetVector

end Sys2Proof.Machine
end

