-- ==== Sys2Proof/Machine/Step.lean ====
section
/-! DEFINITION. One step of the machine (spec/00_scope.md R15, spec/60_exceptions.md R375, R377). -/
namespace Sys2Proof.Machine

/-- The instruction at `pc` fetched, decoded and executed (R283, R377): the fetch address error first, then the code
that is no instruction, then the instruction itself. -/
def instructionStep (s : State) : Result :=
  match s.fetch with
  | .addressError => s.fetchErrorException
  | .fault f => .fault f
  | .refused r => .refused r
  | .code w =>
    match decodeWord s.cfg.cpu w with
    | .ok i => exec i s.ageStores
    | .error _ => s.ageStores.illegalInstruction

/-- One step: a reset overrides everything (R377); asleep the CPU waits for an interrupt (R392); running it accepts an
interrupt or executes one instruction (R375). -/
def step (s : State) : Host.Outcome State Fault Refusal :=
  match s.resetRequest with
  | some k => s.takeReset k
  | none =>
    match s.power with
    | .sleep => s.sleepStep
    | .run =>
      match s.acceptedNow with
      | some q => s.acceptInterrupt q
      | none => instructionStep s.passBoundary

/-- The state with the instruction whose bits are `w` where the next step fetches (log 31).  An instruction is one
word, its bits above `nbits` zero. -/
def State.withFetchWord (s : State) (nbits w : Nat) : State := s.placeCode (BitVec.ofNat 16 (w % 2 ^ nbits))

end Sys2Proof.Machine
end

