-- ==== Sys2Proof/Safety.lean ====
section
/-! DEFINITION. The terms in which the statements about the machine are made: the invariant that every step keeps, what
an instruction leaves alone, how it ends, and which data accesses it makes. -/
namespace Sys2Proof.Machine

/-! ### The invariant -/

/-- The reserved bits of SR are 0 (R26). -/
def State.srReservedZero (s : State) : Prop := s.sr &&& ~~~srMask = 0

/-- On the SH-1, MACH is the sign extension of its bits 9 to 0 (R31). -/
def State.machFits (s : State) : Prop := s.cfg.cpu = .sh1 → s.mach = sext10 (s.mach.extractLsb' 0 10)

/-- Between a delayed branch and its slot no interrupt is accepted, and the slot is at an even address (R286, R378). -/
def State.slotGuarded (s : State) : Prop :=
  s.delayTarget ≠ none → s.intInhibit = true ∧ alignedHalf s.pc = true

/-- The destination held after a BF/S or BT/S that did not branch is the next instruction in sequence (R288). -/
def State.untakenFallsThrough (s : State) : Prop := s.slotAfterUntaken = true → s.delayTarget = some (s.pc + 2)

/-- Asleep, no branch is pending and interrupts are not inhibited (R342, R392). -/
def State.sleepClear (s : State) : Prop :=
  s.power = .sleep → s.delayTarget = none ∧ s.intInhibit = false

/-- The invariant of the machine: memory in its canonical form, SR's reserved bits, the SH-1's MACH, the delay slot,
sleep. -/
structure State.Inv (s : State) : Prop where
  mem : s.mem.wf = true
  sr : s.srReservedZero
  mach : s.machFits
  slot : s.slotGuarded
  untaken : s.untakenFallsThrough
  sleep : s.sleepClear

/-! ### The end of a run -/

/-- The run is over at `endPc` (R398, D19): the instruction there is not executed.  The machine itself does not stop
(log 26). -/
def State.finalAt (endPc : Word) (s : State) : Prop := s.pc = endPc ∧ s.delayTarget = none ∧ s.power = .run

/-- The run is over asleep, when the launch says so: the platform offers nothing acceptable (R398). -/
def State.finalAsleep (s : State) : Prop := s.power = .sleep ∧ s.bestRequest = none

/-! ### What an instruction leaves alone -/

/-- What an instruction is said to write: general registers, bits of SR, other registers, and a range of memory given
by its first address and its length in bytes.  Everything not named is left alone. -/
structure Writes where
  regs : List Reg := []
  srBits : List Nat := []
  gbr  : Bool := false
  vbr  : Bool := false
  mach : Bool := false
  macl : Bool := false
  pr   : Bool := false
  mem  : List (Word × Nat) := []

/-- The address lies in the range of `bytes` bytes from `a`, addresses modulo 2^32 (R70). -/
def inRange (b : Word) (r : Word × Nat) : Prop := (b - r.1).toNat < r.2

/-- Everything that `w` does not name is in `t` as it was in `s`: every register, every bit of SR, every byte of
memory, the platform's side, the model's counters, the parameters. -/
structure Frame (w : Writes) (s t : State) : Prop where
  regs : ∀ r : Reg, r ∉ w.regs → t.reg r = s.reg r
  sr   : ∀ i, i < 32 → i ∉ w.srBits → t.sr.getLsbD i = s.sr.getLsbD i
  gbr  : w.gbr = false → t.gbr = s.gbr
  vbr  : w.vbr = false → t.vbr = s.vbr
  mach : w.mach = false → t.mach = s.mach
  macl : w.macl = false → t.macl = s.macl
  pr   : w.pr = false → t.pr = s.pr
  mem  : ∀ b : Word, (∀ r ∈ w.mem, ¬ inRange b r) → t.mem.byte b = s.mem.byte b
  pending : t.pending = s.pending
  lastAccepted : t.lastAccepted = s.lastAccepted
  resetRequest : t.resetRequest = s.resetRequest
  acceptedCount : t.acceptedCount = s.acceptedCount
  passedCount : t.passedCount = s.passedCount
  waits : t.waits = s.waits
  cfg  : t.cfg = s.cfg

/-- How an instruction ends that does not branch: the next in sequence, or in a delay slot the destination of the
branch, with no branch pending any more (R34, R283). -/
structure Ends (s t : State) (inhibit : Bool) : Prop where
  pc : t.pc = match s.delayTarget with
    | some d => d
    | none => s.pc + 2
  delayTarget : t.delayTarget = none
  slotAfterUntaken : t.slotAfterUntaken = false
  intInhibit : t.intInhibit = inhibit
  power : t.power = s.power

/-- How a delayed branch ends: the slot instruction is next, the destination is held, nothing is accepted between
(R283, R286).  `untaken` says that the destination is only held for `bcs_slot_check_always` (R288). -/
structure EndsInSlot (s t : State) (target : Option Word) (untaken : Bool := false) : Prop where
  pc : t.pc = s.pc + 2
  delayTarget : t.delayTarget = target
  slotAfterUntaken : t.slotAfterUntaken = untaken
  intInhibit : t.intInhibit = true
  power : t.power = s.power

/-- The instruction completes, in a state of which `post` holds. -/
def Completes (i : Instr) (s : State) (post : State → Prop) : Prop := ∃ t, exec i s = .next t ∧ post t

/-- An ordinary instruction that writes one register and nothing else. -/
def WritesReg (i : Instr) (s : State) (n : Reg) (v : Word) : Prop :=
  Completes i s fun t => t.reg n = v ∧ Frame { regs := [n] } s t ∧ Ends s t false

/-- An ordinary instruction that writes the T bit and nothing else. -/
def WritesT (i : Instr) (s : State) (b : Bool) : Prop :=
  Completes i s fun t => t.tBit = b ∧ Frame { srBits := [0] } s t ∧ Ends s t false

/-- An ordinary instruction that writes one register and the T bit and nothing else. -/
def WritesRegT (i : Instr) (s : State) (n : Reg) (v : Word) (b : Bool) : Prop :=
  Completes i s fun t => t.reg n = v ∧ t.tBit = b ∧ Frame { regs := [n], srBits := [0] } s t ∧ Ends s t false

/-- A one-bit shift or rotation to the left (R260): `low` enters at bit 0, bit 31 goes to T. -/
def ShiftsLeft (i : Instr) (s : State) (n : Reg) (low : Bool) : Prop :=
  Completes i s fun t =>
    (∀ j, j < 31 → (t.reg n).getLsbD (j + 1) = (s.reg n).getLsbD j) ∧ (t.reg n).getLsbD 0 = low ∧
    t.tBit = (s.reg n).getLsbD 31 ∧ Frame { regs := [n], srBits := [0] } s t ∧ Ends s t false

/-- A one-bit shift or rotation to the right (R260): `high` enters at bit 31, bit 0 goes to T. -/
def ShiftsRight (i : Instr) (s : State) (n : Reg) (high : Bool) : Prop :=
  Completes i s fun t =>
    (∀ j, j < 31 → (t.reg n).getLsbD j = (s.reg n).getLsbD (j + 1)) ∧ (t.reg n).getLsbD 31 = high ∧
    t.tBit = (s.reg n).getLsbD 0 ∧ Frame { regs := [n], srBits := [0] } s t ∧ Ends s t false

/-- The code of the instruction: the encoder gives it, and on a CPU that has the instruction the decoder reads the
instruction from it (R103 to R108). -/
def HasCode (i : Instr) (w : Half) : Prop :=
  encodeWord i = w ∧ ∀ cpu, i.wellFormed cpu = true → decodeWord cpu w = .ok i

/-! ### Data accesses -/

/-- The alignment an access of this width asks for (R53). -/
def alignedFor (bytes : Nat) (a : Word) : Bool :=
  match bytes with
  | 2 => alignedHalf a
  | 4 => alignedLong a
  | _ => true

/-- The access is aligned and the platform admits it (R53, R71). -/
def State.can (s : State) (kind : AccessKind) (bytes : Nat) (a : Word) : Prop :=
  alignedFor bytes a = true ∧ memAdmits s.cfg a bytes kind = true

/-- What a load of this width from memory gives a register: the byte or word sign-extended, or the longword (R59), in
the byte order of the address (R52, R57). -/
def State.loaded (s : State) (bytes : Nat) (a : Word) : Word :=
  match bytes with
  | 1 => sext8 (s.mem.byte a)
  | 2 => sext16 (s.mem.half (littleEndian s.cfg a) a)
  | _ => s.mem.long (littleEndian s.cfg a) a

/-- Memory holds the low `bytes` bytes of `v` at `a`, in the byte order of the address (R56, R59). -/
def State.holds (t : State) (bytes : Nat) (a : Word) (v : Word) : Prop :=
  match bytes with
  | 1 => t.mem.byte a = lowByte v
  | 2 => t.mem.half (littleEndian t.cfg a) a = lowHalf v
  | _ => t.mem.long (littleEndian t.cfg a) a = v

/-- The instruction takes the address error exception, from the state before it, stacking the address of the
instruction that would execute next (R363, R371). -/
def TakesAddressError (i : Instr) (s : State) : Prop :=
  exec i s = s.exceptionEntry s.cfg.vecCpuAddrErr
    (match s.delayTarget with
     | some d => d
     | none => s.pc + 2) none

/-- A misaligned access of this instruction takes the address error exception. -/
def MisalignedTraps (i : Instr) (s : State) (bytes : Nat) (a : Word) : Prop :=
  alignedFor bytes a = false → TakesAddressError i s

/-- An ordinary load: one register written, nothing else. -/
def Loads (i : Instr) (s : State) (bytes : Nat) (a : Word) (n : Reg) : Prop :=
  s.can .read bytes a → WritesReg i s n (s.loaded bytes a)

/-- An ordinary store: the bytes at `a`, nothing else. -/
def Stores (i : Instr) (s : State) (bytes : Nat) (a v : Word) : Prop :=
  s.can .write bytes a → Completes i s fun t =>
    t.holds bytes a v ∧ Frame { mem := [(a, bytes)] } s t ∧ Ends s t false

/-- A load that moves its address register on (R92): another register is loaded and the address register goes up by the
size; loaded into itself, the register holds the loaded value (R133). -/
def LoadsInc (i : Instr) (s : State) (bytes : Nat) (m n : Reg) : Prop :=
  s.can .read bytes (s.reg m) → Completes i s fun t =>
    t.reg n = s.loaded bytes (s.reg m) ∧ (m ≠ n → t.reg m = s.reg m + BitVec.ofNat 32 bytes) ∧
    Frame { regs := [m, n] } s t ∧ Ends s t false

/-- A store that moves its address register back first (R93): the value stored is that of Rm before the instruction
(R129). -/
def StoresDec (i : Instr) (s : State) (bytes : Nat) (m n : Reg) : Prop :=
  s.can .write bytes (s.reg n - BitVec.ofNat 32 bytes) → Completes i s fun t =>
    t.holds bytes (s.reg n - BitVec.ofNat 32 bytes) (s.reg m) ∧ t.reg n = s.reg n - BitVec.ofNat 32 bytes ∧
    Frame { regs := [n], mem := [(s.reg n - BitVec.ofNat 32 bytes, bytes)] } s t ∧ Ends s t false

/-- A control or system register loaded from the stack form `@Rm+` (R319 to R328): `put t v` says that the register
holds the loaded longword. -/
def PopsInto (i : Instr) (s : State) (m : Reg) (w : Writes) (put : State → Word → Prop) : Prop :=
  s.can .read 4 (s.reg m) → Completes i s fun t =>
    put t (s.loaded 4 (s.reg m)) ∧ t.reg m = s.reg m + 4 ∧ Frame { w with regs := [m] } s t ∧ Ends s t true

/-- A control or system register stored to `@-Rn` (R332 to R340). -/
def PushesFrom (i : Instr) (s : State) (n : Reg) (v : Word) : Prop :=
  s.can .write 4 (s.reg n - 4) → Completes i s fun t =>
    t.holds 4 (s.reg n - 4) v ∧ t.reg n = s.reg n - 4 ∧
    Frame { regs := [n], mem := [(s.reg n - 4, 4)] } s t ∧ Ends s t true

/-- The state after exception entry (R370): SR and the return address on the stack, R15 down by 8, the vector's
longword in the pc, nothing pending, every store seen by the fetch (R66). -/
structure Entered (s t : State) (vec : BitVec 8) (ret : Word) : Prop where
  savedSr : t.holds 4 (s.reg 15 - 4) s.sr
  savedPc : t.holds 4 (s.reg 15 - 8) ret
  sp : t.reg 15 = s.reg 15 - 8
  handler : t.pc = t.loaded 4 (s.vbr + zext8 vec * 4)
  delayTarget : t.delayTarget = none
  slotAfterUntaken : t.slotAfterUntaken = false
  intInhibit : t.intInhibit = false
  power : t.power = .run
  recentStores : t.recentStores = []

/-- The three accesses of exception entry are aligned and admitted (R370, R381). -/
def State.canEnter (s : State) (vec : BitVec 8) : Prop :=
  s.can .write 4 (s.reg 15 - 4) ∧ s.can .write 4 (s.reg 15 - 8) ∧ s.can .read 4 (s.vbr + zext8 vec * 4)

/-- One data access of an instruction. -/
structure DataAccess where
  kind  : AccessKind
  bytes : Nat
  addr  : Word

/-- The address of the second operand of MAC.W and MAC.L: R[m], already incremented when m = n (R217, R222). -/
def State.macSecond (s : State) (m n : Reg) (size : Word) : Word :=
  if m = n then s.reg n + size else s.reg m

/-- The data accesses an instruction makes, in order (R60, R62). -/
def accesses (i : Instr) (s : State) : List DataAccess :=
  match i with
  | .movWPc disp _ => [⟨.read, 2, s.eaPcWord disp⟩]
  | .movLPc disp _ => [⟨.read, 4, s.eaPcLong disp⟩]
  | .movBStore _ n => [⟨.write, 1, s.reg n⟩]
  | .movWStore _ n => [⟨.write, 2, s.reg n⟩]
  | .movLStore _ n => [⟨.write, 4, s.reg n⟩]
  | .movBLoad m _ | .movBLoadInc m _ => [⟨.read, 1, s.reg m⟩]
  | .movWLoad m _ | .movWLoadInc m _ => [⟨.read, 2, s.reg m⟩]
  | .movLLoad m _ | .movLLoadInc m _ => [⟨.read, 4, s.reg m⟩]
  | .movBStoreDec _ n => [⟨.write, 1, s.reg n - 1⟩]
  | .movWStoreDec _ n => [⟨.write, 2, s.reg n - 2⟩]
  | .movLStoreDec _ n => [⟨.write, 4, s.reg n - 4⟩]
  | .movBStoreDisp disp n => [⟨.write, 1, s.eaDisp n disp 1⟩]
  | .movWStoreDisp disp n => [⟨.write, 2, s.eaDisp n disp 2⟩]
  | .movLStoreDisp _ disp n => [⟨.write, 4, s.eaDisp n disp 4⟩]
  | .movBLoadDisp disp m => [⟨.read, 1, s.eaDisp m disp 1⟩]
  | .movWLoadDisp disp m => [⟨.read, 2, s.eaDisp m disp 2⟩]
  | .movLLoadDisp disp m _ => [⟨.read, 4, s.eaDisp m disp 4⟩]
  | .movBStoreIdx _ n => [⟨.write, 1, s.eaIndexed n⟩]
  | .movWStoreIdx _ n => [⟨.write, 2, s.eaIndexed n⟩]
  | .movLStoreIdx _ n => [⟨.write, 4, s.eaIndexed n⟩]
  | .movBLoadIdx m _ => [⟨.read, 1, s.eaIndexed m⟩]
  | .movWLoadIdx m _ => [⟨.read, 2, s.eaIndexed m⟩]
  | .movLLoadIdx m _ => [⟨.read, 4, s.eaIndexed m⟩]
  | .movBStoreGbr disp => [⟨.write, 1, s.eaGbrDisp disp 1⟩]
  | .movWStoreGbr disp => [⟨.write, 2, s.eaGbrDisp disp 2⟩]
  | .movLStoreGbr disp => [⟨.write, 4, s.eaGbrDisp disp 4⟩]
  | .movBLoadGbr disp => [⟨.read, 1, s.eaGbrDisp disp 1⟩]
  | .movWLoadGbr disp => [⟨.read, 2, s.eaGbrDisp disp 2⟩]
  | .movLLoadGbr disp => [⟨.read, 4, s.eaGbrDisp disp 4⟩]
  | .macL m n => [⟨.read, 4, s.reg n⟩, ⟨.read, 4, s.macSecond m n 4⟩]
  | .macW m n => [⟨.read, 2, s.reg n⟩, ⟨.read, 2, s.macSecond m n 2⟩]
  | .andB _ | .orB _ | .xorB _ => [⟨.read, 1, s.eaGbrIndexed⟩, ⟨.write, 1, s.eaGbrIndexed⟩]
  | .tstB _ => [⟨.read, 1, s.eaGbrIndexed⟩]
  | .tasB n => [⟨.read, 1, s.reg n⟩, ⟨.write, 1, s.reg n⟩]
  | .ldcLSr m | .ldcLGbr m | .ldcLVbr m | .ldsLMach m | .ldsLMacl m | .ldsLPr m => [⟨.read, 4, s.reg m⟩]
  | .stcLSr n | .stcLGbr n | .stcLVbr n | .stsLMach n | .stsLMacl n | .stsLPr n => [⟨.write, 4, s.reg n - 4⟩]
  | .rte => [⟨.read, 4, s.reg 15⟩, ⟨.read, 4, s.reg 15 + 4⟩]
  | .trapa imm =>
    [⟨.write, 4, s.reg 15 - 4⟩, ⟨.write, 4, s.reg 15 - 8⟩, ⟨.read, 4, s.vbr + zext8 imm * 4⟩]
  | .movImm _ _ | .mov _ _ | .mova _ | .movt _ | .swapB _ _ | .swapW _ _ | .xtrct _ _ | .add _ _ | .addImm _ _
  | .addc _ _ | .addv _ _ | .cmpEqImm _ | .cmpEq _ _ | .cmpHs _ _ | .cmpGe _ _ | .cmpHi _ _ | .cmpGt _ _
  | .cmpPl _ | .cmpPz _ | .cmpStr _ _ | .div1 _ _ | .div0s _ _ | .div0u | .dmulsL _ _ | .dmuluL _ _ | .dt _
  | .extsB _ _ | .extsW _ _ | .extuB _ _ | .extuW _ _ | .mulL _ _ | .mulsW _ _ | .muluW _ _ | .neg _ _ | .negc _ _
  | .sub _ _ | .subc _ _ | .subv _ _ | .and _ _ | .andImm _ | .not _ _ | .or _ _ | .orImm _ | .tst _ _ | .tstImm _
  | .xor _ _ | .xorImm _ | .rotl _ | .rotr _ | .rotcl _ | .rotcr _ | .shal _ | .shar _ | .shll _ | .shlr _ | .shll2 _
  | .shlr2 _ | .shll8 _ | .shlr8 _ | .shll16 _ | .shlr16 _ | .bf _ | .bfS _ | .bt _ | .btS _ | .bra _ | .braf _
  | .bsr _ | .bsrf _ | .jmp _ | .jsr _ | .rts | .clrt | .clrmac | .ldcSr _ | .ldcGbr _ | .ldcVbr _ | .ldsMach _
  | .ldsMacl _ | .ldsPr _ | .nop | .sett | .sleep | .stcSr _ | .stcGbr _ | .stcVbr _ | .stsMach _ | .stsMacl _
  | .stsPr _ => []

/-- What the data accesses of an instruction let it do: all are aligned and admitted; or the first that is not is
misaligned; or the first that is not is refused by the platform (R55, R56, R71). -/
inductive AccessOutcome where
  | allowed
  | misaligned
  | refused (kind : AccessKind) (addr : Word)
  deriving DecidableEq, Repr

/-- The outcome of a list of accesses, made in order. -/
def State.accessOutcome (s : State) : List DataAccess → AccessOutcome
  | [] => .allowed
  | d :: rest =>
    match alignedFor d.bytes d.addr, memAdmits s.cfg d.addr d.bytes d.kind with
    | false, _ => .misaligned
    | true, false => .refused d.kind d.addr
    | true, true => s.accessOutcome rest

/-- The thirteen instructions that rewrite the PC and are illegal in a delay slot (R284). -/
def rewritesPc (i : Instr) : Bool :=
  match i with
  | .bf _ | .bt _ | .bra _ | .bsr _ | .jmp _ | .jsr _ | .rts | .rte | .trapa _ | .bfS _ | .btS _ | .braf _
  | .bsrf _ => true
  | _ => false

/-- The instruction may run its own course in this state: the CPU has it (R108), and it does not stand in a delay slot
that may not hold it (R284). -/
def legal (i : Instr) (s : State) : Prop :=
  i.wellFormed s.cfg.cpu = true ∧ (rewritesPc i = true → s.delayTarget = none)

/-- The instruction ends with a branch taken here: at the end of the slot of a branch that was taken, or by a BF or BT
that branches (R282, R283). -/
def branchesHere (i : Instr) (s : State) : Bool :=
  match s.delayTarget with
  | some _ => !s.slotAfterUntaken
  | none =>
    match i with
    | .bf _ => !s.tBit
    | .bt _ => s.tBit
    | _ => false

/-- The records of the stores among some accesses, each for the next three instructions (R66, U6). -/
def storesOf (l : List DataAccess) : List StoreRecord :=
  (l.filter fun d => d.kind == .write).map fun d => ⟨d.addr, d.bytes, 3⟩

/-! ### After a reset -/

/-- What a reset leaves (R400, R401), with the PC and R15 of R402. -/
structure AfterReset (s t : State) (pc sp : Word) : Prop where
  pc : t.pc = pc
  sp : t.reg 15 = sp
  imask : t.imask = 15
  sr : t.srReservedZero
  vbr : t.vbr = 0
  delayTarget : t.delayTarget = none
  intInhibit : t.intInhibit = false
  power : t.power = .run
  resetRequest : t.resetRequest = none
  mem : t.mem = s.mem
  cfg : t.cfg = s.cfg

end Sys2Proof.Machine
end

