-- ==== Sys2Proof/Certificates/Slice0/Obligations.lean ====
section
/-! DEFINITION. The statements about the machine, one per obligation of OBLIGATIONS.json. -/
open Sys2Proof Sys2Proof.Machine

/-! ### Data transfer -/

/-- R122, R143, R162 to R165: the register-to-register transfers, MOV #imm and MOVT complete in every state and write
Rn only. -/
def Obligations.RegisterTransfers : Prop :=
  (∀ (s : State) (m n : Reg) (imm : BitVec 8),
    WritesReg (.mov m n) s n (s.reg m) ∧
    WritesReg (.movImm imm n) s n (imm.signExtend 32) ∧
    WritesReg (.movt n) s n (if s.tBit then 1 else 0) ∧
    WritesReg (.swapB m n) s n
      ((s.reg m).extractLsb' 16 16 ++ (s.reg m).extractLsb' 0 8 ++ (s.reg m).extractLsb' 8 8) ∧
    WritesReg (.swapW m n) s n ((s.reg m).extractLsb' 0 16 ++ (s.reg m).extractLsb' 16 16) ∧
    WritesReg (.xtrct m n) s n ((s.reg m).extractLsb' 0 16 ++ (s.reg n).extractLsb' 16 16)) ∧
  (∀ (m n : Reg) (imm : BitVec 8),
    HasCode (.mov m n) (0b0110#4 ++ n.toField ++ m.toField ++ 0b0011#4) ∧
    HasCode (.movImm imm n) (0b1110#4 ++ n.toField ++ imm) ∧
    HasCode (.movt n) (0b0000#4 ++ n.toField ++ 0b00101001#8) ∧
    HasCode (.swapB m n) (0b0110#4 ++ n.toField ++ m.toField ++ 0b1000#4) ∧
    HasCode (.swapW m n) (0b0110#4 ++ n.toField ++ m.toField ++ 0b1001#4) ∧
    HasCode (.xtrct m n) (0b0010#4 ++ n.toField ++ m.toField ++ 0b1101#4))

/-- R144 to R146, R161: the forms that read the PC, outside a delay slot from `pc + 4` and in the slot of a branch to
`d` from `d + 2`. A misaligned access takes the address error exception with nothing changed and the next
instruction's address stacked: the spec's own decisions D4, D13, D22, D23, here the model's choice (logs 5 and 12). -/
def Obligations.PcRelativeForms : Prop :=
  (∀ (s : State) (disp : BitVec 8) (n : Reg),
    let base := match s.delayTarget with
      | none => s.pc + 4
      | some d => d + 2
    let word := base + disp.setWidth 32 * 2
    let long := (base &&& 0xFFFFFFFC) + disp.setWidth 32 * 4
    Loads (.movWPc disp n) s 2 word n ∧ MisalignedTraps (.movWPc disp n) s 2 word ∧
    Loads (.movLPc disp n) s 4 long n ∧ alignedLong long = true ∧
    WritesReg (.mova disp) s 0 long) ∧
  (∀ (n : Reg) (d8 : BitVec 8),
    HasCode (.movWPc d8 n) (0b1001#4 ++ n.toField ++ d8) ∧
    HasCode (.movLPc d8 n) (0b1101#4 ++ n.toField ++ d8) ∧
    HasCode (.mova d8) (0b11000111#8 ++ d8))

/-- R126 to R128: the loads through `@Rm`. A misaligned access takes the address error exception with nothing changed
and the next instruction's address stacked: the spec's own decisions D4, D13, D22, D23, here the model's choice (logs
5 and 12). -/
def Obligations.IndirectLoads : Prop :=
  (∀ (s : State) (m n : Reg),
    Loads (.movBLoad m n) s 1 (s.reg m) n ∧
    Loads (.movWLoad m n) s 2 (s.reg m) n ∧ MisalignedTraps (.movWLoad m n) s 2 (s.reg m) ∧
    Loads (.movLLoad m n) s 4 (s.reg m) n ∧ MisalignedTraps (.movLLoad m n) s 4 (s.reg m)) ∧
  (∀ (m n : Reg),
    HasCode (.movBLoad m n) (0b0110#4 ++ n.toField ++ m.toField ++ 0b0000#4) ∧
    HasCode (.movWLoad m n) (0b0110#4 ++ n.toField ++ m.toField ++ 0b0001#4) ∧
    HasCode (.movLLoad m n) (0b0110#4 ++ n.toField ++ m.toField ++ 0b0010#4))

/-- R157 to R159, R140 to R142 and R147 to R149: the loads through `@(disp,Rm)`, `@(R0,Rm)` and `@(disp,GBR)`. A
misaligned access takes the address error exception with nothing changed and the next instruction's address stacked:
the spec's own decisions D4, D13, D22, D23, here the model's choice (logs 5 and 12). -/
def Obligations.DisplacedIndexedGbrLoads : Prop :=
  (∀ (s : State) (m n : Reg) (disp : BitVec 4) (disp8 : BitVec 8),
    let d := disp.setWidth 32
    let g := disp8.setWidth 32
    Loads (.movBLoadDisp disp m) s 1 (s.reg m + d) 0 ∧
    Loads (.movWLoadDisp disp m) s 2 (s.reg m + d * 2) 0 ∧
    MisalignedTraps (.movWLoadDisp disp m) s 2 (s.reg m + d * 2) ∧
    Loads (.movLLoadDisp disp m n) s 4 (s.reg m + d * 4) n ∧
    MisalignedTraps (.movLLoadDisp disp m n) s 4 (s.reg m + d * 4) ∧
    Loads (.movBLoadIdx m n) s 1 (s.reg m + s.reg 0) n ∧
    Loads (.movWLoadIdx m n) s 2 (s.reg m + s.reg 0) n ∧
    MisalignedTraps (.movWLoadIdx m n) s 2 (s.reg m + s.reg 0) ∧
    Loads (.movLLoadIdx m n) s 4 (s.reg m + s.reg 0) n ∧
    MisalignedTraps (.movLLoadIdx m n) s 4 (s.reg m + s.reg 0) ∧
    Loads (.movBLoadGbr disp8) s 1 (s.gbr + g) 0 ∧
    Loads (.movWLoadGbr disp8) s 2 (s.gbr + g * 2) 0 ∧ MisalignedTraps (.movWLoadGbr disp8) s 2 (s.gbr + g * 2) ∧
    Loads (.movLLoadGbr disp8) s 4 (s.gbr + g * 4) 0 ∧ MisalignedTraps (.movLLoadGbr disp8) s 4 (s.gbr + g * 4)) ∧
  (∀ (m n : Reg) (d4 : BitVec 4) (d8 : BitVec 8),
    HasCode (.movBLoadDisp d4 m) (0b10000100#8 ++ m.toField ++ d4) ∧
    HasCode (.movWLoadDisp d4 m) (0b10000101#8 ++ m.toField ++ d4) ∧
    HasCode (.movLLoadDisp d4 m n) (0b0101#4 ++ n.toField ++ m.toField ++ d4) ∧
    HasCode (.movBLoadIdx m n) (0b0000#4 ++ n.toField ++ m.toField ++ 0b1100#4) ∧
    HasCode (.movWLoadIdx m n) (0b0000#4 ++ n.toField ++ m.toField ++ 0b1101#4) ∧
    HasCode (.movLLoadIdx m n) (0b0000#4 ++ n.toField ++ m.toField ++ 0b1110#4) ∧
    HasCode (.movBLoadGbr d8) (0b11000100#8 ++ d8) ∧
    HasCode (.movWLoadGbr d8) (0b11000101#8 ++ d8) ∧
    HasCode (.movLLoadGbr d8) (0b11000110#8 ++ d8))

/-- R134 to R136: the post-increment loads, with the loaded value winning when m = n (R133). A misaligned access takes
the address error exception with nothing changed and the next instruction's address stacked: the spec's own decisions
D4, D13, D22, D23, here the model's choice (logs 5 and 12). -/
def Obligations.PostIncrementLoads : Prop :=
  (∀ (s : State) (m n : Reg),
    LoadsInc (.movBLoadInc m n) s 1 m n ∧
    LoadsInc (.movWLoadInc m n) s 2 m n ∧ MisalignedTraps (.movWLoadInc m n) s 2 (s.reg m) ∧
    LoadsInc (.movLLoadInc m n) s 4 m n ∧ MisalignedTraps (.movLLoadInc m n) s 4 (s.reg m)) ∧
  (∀ (m n : Reg),
    HasCode (.movBLoadInc m n) (0b0110#4 ++ n.toField ++ m.toField ++ 0b0100#4) ∧
    HasCode (.movWLoadInc m n) (0b0110#4 ++ n.toField ++ m.toField ++ 0b0101#4) ∧
    HasCode (.movLLoadInc m n) (0b0110#4 ++ n.toField ++ m.toField ++ 0b0110#4))

/-- R123 to R125: the stores through `@Rn`. A misaligned access takes the address error exception with nothing changed
and the next instruction's address stacked: the spec's own decisions D4, D13, D22, D23, here the model's choice (logs
5 and 12). -/
def Obligations.IndirectStores : Prop :=
  (∀ (s : State) (m n : Reg),
    Stores (.movBStore m n) s 1 (s.reg n) (s.reg m) ∧
    Stores (.movWStore m n) s 2 (s.reg n) (s.reg m) ∧ MisalignedTraps (.movWStore m n) s 2 (s.reg n) ∧
    Stores (.movLStore m n) s 4 (s.reg n) (s.reg m) ∧ MisalignedTraps (.movLStore m n) s 4 (s.reg n)) ∧
  (∀ (m n : Reg),
    HasCode (.movBStore m n) (0b0010#4 ++ n.toField ++ m.toField ++ 0b0000#4) ∧
    HasCode (.movWStore m n) (0b0010#4 ++ n.toField ++ m.toField ++ 0b0001#4) ∧
    HasCode (.movLStore m n) (0b0010#4 ++ n.toField ++ m.toField ++ 0b0010#4))

/-- R154 to R156, R137 to R139 and R150 to R152: the stores through `@(disp,Rn)`, `@(R0,Rn)` and `@(disp,GBR)`. A
misaligned access takes the address error exception with nothing changed and the next instruction's address stacked:
the spec's own decisions D4, D13, D22, D23, here the model's choice (logs 5 and 12). -/
def Obligations.DisplacedIndexedGbrStores : Prop :=
  (∀ (s : State) (m n : Reg) (disp : BitVec 4) (disp8 : BitVec 8),
    let d := disp.setWidth 32
    let g := disp8.setWidth 32
    Stores (.movBStoreDisp disp n) s 1 (s.reg n + d) (s.reg 0) ∧
    Stores (.movWStoreDisp disp n) s 2 (s.reg n + d * 2) (s.reg 0) ∧
    MisalignedTraps (.movWStoreDisp disp n) s 2 (s.reg n + d * 2) ∧
    Stores (.movLStoreDisp m disp n) s 4 (s.reg n + d * 4) (s.reg m) ∧
    MisalignedTraps (.movLStoreDisp m disp n) s 4 (s.reg n + d * 4) ∧
    Stores (.movBStoreIdx m n) s 1 (s.reg n + s.reg 0) (s.reg m) ∧
    Stores (.movWStoreIdx m n) s 2 (s.reg n + s.reg 0) (s.reg m) ∧
    MisalignedTraps (.movWStoreIdx m n) s 2 (s.reg n + s.reg 0) ∧
    Stores (.movLStoreIdx m n) s 4 (s.reg n + s.reg 0) (s.reg m) ∧
    MisalignedTraps (.movLStoreIdx m n) s 4 (s.reg n + s.reg 0) ∧
    Stores (.movBStoreGbr disp8) s 1 (s.gbr + g) (s.reg 0) ∧
    Stores (.movWStoreGbr disp8) s 2 (s.gbr + g * 2) (s.reg 0) ∧
    MisalignedTraps (.movWStoreGbr disp8) s 2 (s.gbr + g * 2) ∧
    Stores (.movLStoreGbr disp8) s 4 (s.gbr + g * 4) (s.reg 0) ∧
    MisalignedTraps (.movLStoreGbr disp8) s 4 (s.gbr + g * 4)) ∧
  (∀ (m n : Reg) (d4 : BitVec 4) (d8 : BitVec 8),
    HasCode (.movBStoreDisp d4 n) (0b10000000#8 ++ n.toField ++ d4) ∧
    HasCode (.movWStoreDisp d4 n) (0b10000001#8 ++ n.toField ++ d4) ∧
    HasCode (.movLStoreDisp m d4 n) (0b0001#4 ++ n.toField ++ m.toField ++ d4) ∧
    HasCode (.movBStoreIdx m n) (0b0000#4 ++ n.toField ++ m.toField ++ 0b0100#4) ∧
    HasCode (.movWStoreIdx m n) (0b0000#4 ++ n.toField ++ m.toField ++ 0b0101#4) ∧
    HasCode (.movLStoreIdx m n) (0b0000#4 ++ n.toField ++ m.toField ++ 0b0110#4) ∧
    HasCode (.movBStoreGbr d8) (0b11000000#8 ++ d8) ∧
    HasCode (.movWStoreGbr d8) (0b11000001#8 ++ d8) ∧
    HasCode (.movLStoreGbr d8) (0b11000010#8 ++ d8))

/-- R130 to R132: the pre-decrement stores; with m = n the value before the decrement is stored (R129). A misaligned
access takes the address error exception with nothing changed and the next instruction's address stacked: the spec's
own decisions D4, D13, D22, D23, here the model's choice (logs 5 and 12). -/
def Obligations.PreDecrementStores : Prop :=
  (∀ (s : State) (m n : Reg),
    StoresDec (.movBStoreDec m n) s 1 m n ∧
    StoresDec (.movWStoreDec m n) s 2 m n ∧ MisalignedTraps (.movWStoreDec m n) s 2 (s.reg n - 2) ∧
    StoresDec (.movLStoreDec m n) s 4 m n ∧ MisalignedTraps (.movLStoreDec m n) s 4 (s.reg n - 4)) ∧
  (∀ (m n : Reg),
    HasCode (.movBStoreDec m n) (0b0010#4 ++ n.toField ++ m.toField ++ 0b0100#4) ∧
    HasCode (.movWStoreDec m n) (0b0010#4 ++ n.toField ++ m.toField ++ 0b0101#4) ∧
    HasCode (.movLStoreDec m n) (0b0010#4 ++ n.toField ++ m.toField ++ 0b0110#4))

/-! ### Arithmetic -/

/-- R172, R173, R192 to R196, R198: the arithmetic that leaves T alone. -/
def Obligations.PlainArithmetic : Prop :=
  (∀ (s : State) (m n : Reg) (imm : BitVec 8),
    WritesReg (.add m n) s n (BitVec.ofNat 32 ((s.reg n).toNat + (s.reg m).toNat)) ∧
    WritesReg (.addImm imm n) s n (BitVec.ofInt 32 ((s.reg n).toInt + imm.toInt)) ∧
    WritesReg (.extsB m n) s n (((s.reg m).extractLsb' 0 8).signExtend 32) ∧
    WritesReg (.extsW m n) s n (((s.reg m).extractLsb' 0 16).signExtend 32) ∧
    WritesReg (.extuB m n) s n (((s.reg m).extractLsb' 0 8).setWidth 32) ∧
    WritesReg (.extuW m n) s n (((s.reg m).extractLsb' 0 16).setWidth 32) ∧
    WritesReg (.neg m n) s n (BitVec.ofInt 32 (-(s.reg m).toInt)) ∧
    WritesReg (.sub m n) s n (BitVec.ofInt 32 ((s.reg n).toInt - (s.reg m).toInt))) ∧
  (∀ (m n : Reg) (imm : BitVec 8),
    HasCode (.add m n) (0b0011#4 ++ n.toField ++ m.toField ++ 0b1100#4) ∧
    HasCode (.addImm imm n) (0b0111#4 ++ n.toField ++ imm) ∧
    HasCode (.extsB m n) (0b0110#4 ++ n.toField ++ m.toField ++ 0b1110#4) ∧
    HasCode (.extsW m n) (0b0110#4 ++ n.toField ++ m.toField ++ 0b1111#4) ∧
    HasCode (.extuB m n) (0b0110#4 ++ n.toField ++ m.toField ++ 0b1100#4) ∧
    HasCode (.extuW m n) (0b0110#4 ++ n.toField ++ m.toField ++ 0b1101#4) ∧
    HasCode (.neg m n) (0b0110#4 ++ n.toField ++ m.toField ++ 0b1011#4) ∧
    HasCode (.sub m n) (0b0011#4 ++ n.toField ++ m.toField ++ 0b1000#4))

/-- R174, R197, R199: the result and T of ADDC, NEGC and SUBC are together the exact sum or difference. -/
def Obligations.CarryArithmetic : Prop :=
  (∀ (s : State) (m n : Reg),
    Completes (.addc m n) s (fun t =>
      (t.reg n).toNat + 2 ^ 32 * bit t.tBit = (s.reg n).toNat + (s.reg m).toNat + bit s.tBit ∧
      Frame { regs := [n], srBits := [0] } s t ∧ Ends s t false) ∧
    Completes (.subc m n) s (fun t =>
      (t.reg n).toNat + (s.reg m).toNat + bit s.tBit = (s.reg n).toNat + 2 ^ 32 * bit t.tBit ∧
      Frame { regs := [n], srBits := [0] } s t ∧ Ends s t false) ∧
    Completes (.negc m n) s (fun t =>
      (t.reg n).toNat + (s.reg m).toNat + bit s.tBit = 2 ^ 32 * bit t.tBit ∧
      Frame { regs := [n], srBits := [0] } s t ∧ Ends s t false)) ∧
  (∀ (m n : Reg),
    HasCode (.addc m n) (0b0011#4 ++ n.toField ++ m.toField ++ 0b1110#4) ∧
    HasCode (.subc m n) (0b0011#4 ++ n.toField ++ m.toField ++ 0b1010#4) ∧
    HasCode (.negc m n) (0b0110#4 ++ n.toField ++ m.toField ++ 0b1010#4))

/-- R175, R200: ADDV and SUBV set T exactly when the signed result does not fit 32 bits; without T the register holds
the exact signed result. -/
def Obligations.OverflowArithmetic : Prop :=
  (∀ (s : State) (m n : Reg),
    Completes (.addv m n) s (fun t =>
      t.reg n = s.reg n + s.reg m ∧
      (t.tBit = false ↔ (t.reg n).toInt = (s.reg n).toInt + (s.reg m).toInt) ∧
      Frame { regs := [n], srBits := [0] } s t ∧ Ends s t false) ∧
    Completes (.subv m n) s (fun t =>
      t.reg n = s.reg n - s.reg m ∧
      (t.tBit = false ↔ (t.reg n).toInt = (s.reg n).toInt - (s.reg m).toInt) ∧
      Frame { regs := [n], srBits := [0] } s t ∧ Ends s t false)) ∧
  (∀ (m n : Reg),
    HasCode (.addv m n) (0b0011#4 ++ n.toField ++ m.toField ++ 0b1111#4) ∧
    HasCode (.subv m n) (0b0011#4 ++ n.toField ++ m.toField ++ 0b1011#4))

/-- R177 to R185: the nine comparisons write T and nothing else. -/
def Obligations.Comparisons : Prop :=
  (∀ (s : State) (m n : Reg) (imm : BitVec 8),
    WritesT (.cmpEq m n) s (decide (s.reg n = s.reg m)) ∧
    WritesT (.cmpHs m n) s (decide ((s.reg n).toNat ≥ (s.reg m).toNat)) ∧
    WritesT (.cmpGe m n) s (decide ((s.reg n).toInt ≥ (s.reg m).toInt)) ∧
    WritesT (.cmpHi m n) s (decide ((s.reg n).toNat > (s.reg m).toNat)) ∧
    WritesT (.cmpGt m n) s (decide ((s.reg n).toInt > (s.reg m).toInt)) ∧
    WritesT (.cmpPl n) s (decide ((s.reg n).toInt > 0)) ∧
    WritesT (.cmpPz n) s (decide ((s.reg n).toInt ≥ 0)) ∧
    WritesT (.cmpStr m n) s
      (decide (∃ k : Fin 4, (s.reg n).extractLsb' (8 * k.val) 8 = (s.reg m).extractLsb' (8 * k.val) 8)) ∧
    WritesT (.cmpEqImm imm) s (decide (s.reg 0 = imm.signExtend 32))) ∧
  (∀ (m n : Reg) (imm : BitVec 8),
    HasCode (.cmpEq m n) (0b0011#4 ++ n.toField ++ m.toField ++ 0b0000#4) ∧
    HasCode (.cmpHs m n) (0b0011#4 ++ n.toField ++ m.toField ++ 0b0010#4) ∧
    HasCode (.cmpGe m n) (0b0011#4 ++ n.toField ++ m.toField ++ 0b0011#4) ∧
    HasCode (.cmpHi m n) (0b0011#4 ++ n.toField ++ m.toField ++ 0b0110#4) ∧
    HasCode (.cmpGt m n) (0b0011#4 ++ n.toField ++ m.toField ++ 0b0111#4) ∧
    HasCode (.cmpPl n) (0b0100#4 ++ n.toField ++ 0b00010101#8) ∧
    HasCode (.cmpPz n) (0b0100#4 ++ n.toField ++ 0b00010001#8) ∧
    HasCode (.cmpStr m n) (0b0010#4 ++ n.toField ++ m.toField ++ 0b1100#4) ∧
    HasCode (.cmpEqImm imm) (0b10001000#8 ++ imm))

/-- R186, R187: DIV0S and DIV0U write Q, M and T and nothing else. -/
def Obligations.DivisionStart : Prop :=
  (∀ (s : State) (m n : Reg),
    Completes (.div0s m n) s (fun t =>
      t.qBit = (s.reg n).getLsbD 31 ∧ t.mBit = (s.reg m).getLsbD 31 ∧
      t.tBit = xor ((s.reg m).getLsbD 31) ((s.reg n).getLsbD 31) ∧
      Frame { srBits := [0, 8, 9] } s t ∧ Ends s t false) ∧
    Completes .div0u s (fun t =>
      t.qBit = false ∧ t.mBit = false ∧ t.tBit = false ∧ Frame { srBits := [0, 8, 9] } s t ∧ Ends s t false)) ∧
  (∀ (m n : Reg),
    HasCode (.div0s m n) (0b0010#4 ++ n.toField ++ m.toField ++ 0b0111#4) ∧
    HasCode .div0u (0b0000000000011001#16))

/-- R188: one step of the division, the divisor being the already shifted Rn when m = n. -/
def Obligations.DivisionStep : Prop :=
  (∀ (s : State) (m n : Reg),
    let x := (s.reg n <<< 1) ||| (if s.tBit then 1 else 0)
    let d := if m = n then x else s.reg m
    let r := if s.qBit = s.mBit then x - d else x + d
    let tmp1 := if s.qBit = s.mBit then decide (r.toNat > x.toNat) else decide (r.toNat < x.toNat)
    let q := if s.mBit then !(xor ((s.reg n).getLsbD 31) tmp1) else xor ((s.reg n).getLsbD 31) tmp1
    Completes (.div1 m n) s fun t =>
      t.reg n = r ∧ t.qBit = q ∧ t.tBit = decide (q = s.mBit) ∧
      Frame { regs := [n], srBits := [0, 8] } s t ∧ Ends s t false) ∧
  (∀ (m n : Reg),
    HasCode (.div1 m n) (0b0011#4 ++ n.toField ++ m.toField ++ 0b0100#4))

/-- Derived from R188 and R189: with Q above the register and M above the divisor as 33rd bits, DIV1 shifts T in and
subtracts the divisor when Q equals M, else adds it, modulo 2^33; T says whether the new Q equals M. -/
def Obligations.DivisionStepIn33Bits : Prop :=
  ∀ (s t : State) (m n : Reg), m ≠ n → exec (.div1 m n) s = .next t →
    let divisor : Int := (s.reg m).toNat + 2 ^ 32 * bit s.mBit
    let shifted : Int := 2 * (s.reg n).toNat + bit s.tBit
    (((t.reg n).toNat + 2 ^ 32 * bit t.qBit : Nat) : Int) =
      (if s.qBit = s.mBit then shifted - divisor else shifted + divisor) % 2 ^ 33 ∧
    t.tBit = decide (t.qBit = s.mBit)

/-- R191: DT on the SH-2. -/
def Obligations.DecrementAndTest : Prop :=
  (∀ (s : State) (n : Reg), s.cfg.cpu = .sh2 →
    WritesRegT (.dt n) s n (s.reg n - 1) (decide (s.reg n = 1))) ∧
  (∀ (n : Reg),
    HasCode (.dt n) (0b0100#4 ++ n.toField ++ 0b00010000#8))

/-! ### Multiplication -/

/-- R212 to R216: the five multiplications, as exact products. -/
def Obligations.Multiplications : Prop :=
  (∀ (s : State) (m n : Reg),
    (s.cfg.cpu = .sh2 →
      Completes (.dmulsL m n) s (fun t =>
        (t.mach ++ t.macl : BitVec 64).toInt = (s.reg n).toInt * (s.reg m).toInt ∧
        Frame { mach := true, macl := true } s t ∧ Ends s t false) ∧
      Completes (.dmuluL m n) s (fun t =>
        (t.mach ++ t.macl : BitVec 64).toNat = (s.reg n).toNat * (s.reg m).toNat ∧
        Frame { mach := true, macl := true } s t ∧ Ends s t false) ∧
      Completes (.mulL m n) s (fun t =>
        t.macl.toNat = (s.reg n).toNat * (s.reg m).toNat % 2 ^ 32 ∧
        Frame { macl := true } s t ∧ Ends s t false)) ∧
    Completes (.mulsW m n) s (fun t =>
      t.macl.toInt = ((s.reg n).extractLsb' 0 16).toInt * ((s.reg m).extractLsb' 0 16).toInt ∧
      Frame { macl := true } s t ∧ Ends s t false) ∧
    Completes (.muluW m n) s (fun t =>
      t.macl.toNat = ((s.reg n).extractLsb' 0 16).toNat * ((s.reg m).extractLsb' 0 16).toNat ∧
      Frame { macl := true } s t ∧ Ends s t false)) ∧
  (∀ (m n : Reg),
    HasCode (.dmulsL m n) (0b0011#4 ++ n.toField ++ m.toField ++ 0b1101#4) ∧
    HasCode (.dmuluL m n) (0b0011#4 ++ n.toField ++ m.toField ++ 0b0101#4) ∧
    HasCode (.mulL m n) (0b0000#4 ++ n.toField ++ m.toField ++ 0b0111#4) ∧
    HasCode (.mulsW m n) (0b0010#4 ++ n.toField ++ m.toField ++ 0b1111#4) ∧
    HasCode (.muluW m n) (0b0010#4 ++ n.toField ++ m.toField ++ 0b1110#4))

/-- R217 to R219, R222: MAC.L with S = 0 accumulates modulo 2^64, with S = 1 the exact sum is limited to 48 bits; both
registers go up, the same register twice. With S = 1 the full 64-bit accumulator takes part (D27, log 18). -/
def Obligations.MacLong : Prop :=
  (∀ (s : State) (m n : Reg), s.cfg.cpu = .sh2 → s.can .read 4 (s.reg n) → s.can .read 4 (s.macSecond m n 4) →
    let sum := (s.mach ++ s.macl : BitVec 64).toInt +
      (s.loaded 4 (s.reg n)).toInt * (s.loaded 4 (s.macSecond m n 4)).toInt
    Completes (.macL m n) s fun t =>
      (s.sBit = false → (t.mach ++ t.macl : BitVec 64) = BitVec.ofInt 64 sum) ∧
      (s.sBit = true → (t.mach ++ t.macl : BitVec 64).toInt = max (-2 ^ 47) (min (2 ^ 47 - 1) sum)) ∧
      t.reg n = s.reg n + (if m = n then 8 else 4) ∧ t.reg m = s.reg m + (if m = n then 8 else 4) ∧
      Frame { regs := [m, n], mach := true, macl := true } s t ∧ Ends s t false) ∧
  (∀ (m n : Reg),
    HasCode (.macL m n) (0b0000#4 ++ n.toField ++ m.toField ++ 0b1111#4))

/-- R217, R220, R221: MAC.W with S = 0 accumulates modulo 2^64 on the SH-2 and modulo 2^42 on the SH-1, where the upper
22 bits of MACH copy bit 9. -/
def Obligations.MacWord : Prop :=
  (∀ (s : State) (m n : Reg), s.sBit = false → s.can .read 2 (s.reg n) → s.can .read 2 (s.macSecond m n 2) →
    let p := (s.loaded 2 (s.reg n)).toInt * (s.loaded 2 (s.macSecond m n 2)).toInt
    Completes (.macW m n) s fun t =>
      (s.cfg.cpu = .sh2 →
        (t.mach ++ t.macl : BitVec 64) = BitVec.ofInt 64 ((s.mach ++ s.macl : BitVec 64).toInt + p)) ∧
      (s.cfg.cpu = .sh1 →
        (t.mach.extractLsb' 0 10 ++ t.macl : BitVec 42) =
          BitVec.ofInt 42 ((s.mach.extractLsb' 0 10 ++ s.macl : BitVec 42).toInt + p) ∧
        t.mach = (t.mach.extractLsb' 0 10).signExtend 32) ∧
      t.reg n = s.reg n + (if m = n then 4 else 2) ∧ t.reg m = s.reg m + (if m = n then 4 else 2) ∧
      Frame { regs := [m, n], mach := true, macl := true } s t ∧ Ends s t false) ∧
  (∀ (m n : Reg),
    HasCode (.macW m n) (0b0100#4 ++ n.toField ++ m.toField ++ 0b1111#4))

/-- R217, R223: MAC.W with S = 1 limits the exact sum to 32 bits in MACL; an overflow sets bit 0 of MACH on the SH-1,
and on the SH-2 when the open parameter says so; MACH is otherwise unchanged. The parameter is D24 (log 17). -/
def Obligations.MacWordSaturating : Prop :=
  ∀ (s : State) (m n : Reg), s.sBit = true → s.can .read 2 (s.reg n) → s.can .read 2 (s.macSecond m n 2) →
    let sum := s.macl.toInt + (s.loaded 2 (s.reg n)).toInt * (s.loaded 2 (s.macSecond m n 2)).toInt
    let overflow := sum < -2 ^ 31 ∨ 2 ^ 31 - 1 < sum
    Completes (.macW m n) s fun t =>
      t.macl.toInt = max (-2 ^ 31) (min (2 ^ 31 - 1) sum) ∧
      (overflow ∧ (s.cfg.cpu = .sh1 ∨ s.cfg.macwSatFlagSh2 = true) → t.mach = s.mach ||| 1) ∧
      (¬ (overflow ∧ (s.cfg.cpu = .sh1 ∨ s.cfg.macwSatFlagSh2 = true)) → t.mach = s.mach) ∧
      t.reg n = s.reg n + (if m = n then 4 else 2) ∧ t.reg m = s.reg m + (if m = n then 4 else 2) ∧
      Frame { regs := [m, n], mach := true, macl := true } s t ∧ Ends s t false

/-! ### Logic -/

/-- R232, R233, R235 to R237, R240, R241, R243, R244: the logic instructions on registers. -/
def Obligations.LogicOnRegisters : Prop :=
  (∀ (s : State) (m n : Reg) (imm : BitVec 8),
    WritesReg (.and m n) s n (s.reg n &&& s.reg m) ∧
    WritesReg (.andImm imm) s 0 (s.reg 0 &&& imm.setWidth 32) ∧
    WritesReg (.not m n) s n (~~~ s.reg m) ∧
    WritesReg (.or m n) s n (s.reg n ||| s.reg m) ∧
    WritesReg (.orImm imm) s 0 (s.reg 0 ||| imm.setWidth 32) ∧
    WritesReg (.xor m n) s n (s.reg n ^^^ s.reg m) ∧
    WritesReg (.xorImm imm) s 0 (s.reg 0 ^^^ imm.setWidth 32) ∧
    WritesT (.tst m n) s (decide (s.reg n &&& s.reg m = 0)) ∧
    WritesT (.tstImm imm) s (decide (s.reg 0 &&& imm.setWidth 32 = 0))) ∧
  (∀ (m n : Reg) (imm : BitVec 8),
    HasCode (.and m n) (0b0010#4 ++ n.toField ++ m.toField ++ 0b1001#4) ∧
    HasCode (.andImm imm) (0b11001001#8 ++ imm) ∧
    HasCode (.not m n) (0b0110#4 ++ n.toField ++ m.toField ++ 0b0111#4) ∧
    HasCode (.or m n) (0b0010#4 ++ n.toField ++ m.toField ++ 0b1011#4) ∧
    HasCode (.orImm imm) (0b11001011#8 ++ imm) ∧
    HasCode (.xor m n) (0b0010#4 ++ n.toField ++ m.toField ++ 0b1010#4) ∧
    HasCode (.xorImm imm) (0b11001010#8 ++ imm) ∧
    HasCode (.tst m n) (0b0010#4 ++ n.toField ++ m.toField ++ 0b1000#4) ∧
    HasCode (.tstImm imm) (0b11001000#8 ++ imm))

/-- R234, R238, R242, R245: the logic instructions on the byte at `@(R0,GBR)`. -/
def Obligations.LogicOnMemory : Prop :=
  (∀ (s : State) (imm : BitVec 8),
    let a := s.gbr + s.reg 0
    (s.can .read 1 a → s.can .write 1 a →
      Completes (.andB imm) s (fun t =>
        t.mem.byte a = s.mem.byte a &&& imm ∧ Frame { mem := [(a, 1)] } s t ∧ Ends s t false) ∧
      Completes (.orB imm) s (fun t =>
        t.mem.byte a = s.mem.byte a ||| imm ∧ Frame { mem := [(a, 1)] } s t ∧ Ends s t false) ∧
      Completes (.xorB imm) s (fun t =>
        t.mem.byte a = s.mem.byte a ^^^ imm ∧ Frame { mem := [(a, 1)] } s t ∧ Ends s t false)) ∧
    (s.can .read 1 a → WritesT (.tstB imm) s (decide (s.mem.byte a &&& imm = 0)))) ∧
  (∀ (imm : BitVec 8),
    HasCode (.andB imm) (0b11001101#8 ++ imm) ∧
    HasCode (.orB imm) (0b11001111#8 ++ imm) ∧
    HasCode (.xorB imm) (0b11001110#8 ++ imm) ∧
    HasCode (.tstB imm) (0b11001100#8 ++ imm))

/-- R239 but for the bus lock: TAS.B. -/
def Obligations.TestAndSet : Prop :=
  (∀ (s : State) (n : Reg), s.can .read 1 (s.reg n) → s.can .write 1 (s.reg n) →
    Completes (.tasB n) s fun t =>
      t.tBit = decide (s.mem.byte (s.reg n) = 0) ∧ t.mem.byte (s.reg n) = s.mem.byte (s.reg n) ||| 0x80 ∧
      Frame { srBits := [0], mem := [(s.reg n, 1)] } s t ∧ Ends s t false) ∧
  (∀ (n : Reg),
    HasCode (.tasB n) (0b0100#4 ++ n.toField ++ 0b00011011#8))

/-! ### Shifts -/

/-- R262 to R269: the one-bit shifts and rotations, bit by bit. -/
def Obligations.OneBitShifts : Prop :=
  (∀ (s : State) (n : Reg),
    ShiftsLeft (.rotl n) s n ((s.reg n).getLsbD 31) ∧ ShiftsLeft (.rotcl n) s n s.tBit ∧
    ShiftsLeft (.shal n) s n false ∧ ShiftsLeft (.shll n) s n false ∧
    ShiftsRight (.rotr n) s n ((s.reg n).getLsbD 0) ∧ ShiftsRight (.rotcr n) s n s.tBit ∧
    ShiftsRight (.shar n) s n ((s.reg n).getLsbD 31) ∧ ShiftsRight (.shlr n) s n false) ∧
  (∀ (n : Reg),
    HasCode (.rotl n) (0b0100#4 ++ n.toField ++ 0b00000100#8) ∧
    HasCode (.rotcl n) (0b0100#4 ++ n.toField ++ 0b00100100#8) ∧
    HasCode (.shal n) (0b0100#4 ++ n.toField ++ 0b00100000#8) ∧
    HasCode (.shll n) (0b0100#4 ++ n.toField ++ 0b00000000#8) ∧
    HasCode (.rotr n) (0b0100#4 ++ n.toField ++ 0b00000101#8) ∧
    HasCode (.rotcr n) (0b0100#4 ++ n.toField ++ 0b00100101#8) ∧
    HasCode (.shar n) (0b0100#4 ++ n.toField ++ 0b00100001#8) ∧
    HasCode (.shlr n) (0b0100#4 ++ n.toField ++ 0b00000001#8))

/-- R270 to R275: the shifts by 2, 8 and 16, as products and quotients; T stays. -/
def Obligations.MultiBitShifts : Prop :=
  (∀ (s : State) (n : Reg),
    WritesReg (.shll2 n) s n (BitVec.ofNat 32 ((s.reg n).toNat * 2 ^ 2)) ∧
    WritesReg (.shll8 n) s n (BitVec.ofNat 32 ((s.reg n).toNat * 2 ^ 8)) ∧
    WritesReg (.shll16 n) s n (BitVec.ofNat 32 ((s.reg n).toNat * 2 ^ 16)) ∧
    WritesReg (.shlr2 n) s n (BitVec.ofNat 32 ((s.reg n).toNat / 2 ^ 2)) ∧
    WritesReg (.shlr8 n) s n (BitVec.ofNat 32 ((s.reg n).toNat / 2 ^ 8)) ∧
    WritesReg (.shlr16 n) s n (BitVec.ofNat 32 ((s.reg n).toNat / 2 ^ 16))) ∧
  (∀ (n : Reg),
    HasCode (.shll2 n) (0b0100#4 ++ n.toField ++ 0b00001000#8) ∧
    HasCode (.shll8 n) (0b0100#4 ++ n.toField ++ 0b00011000#8) ∧
    HasCode (.shll16 n) (0b0100#4 ++ n.toField ++ 0b00101000#8) ∧
    HasCode (.shlr2 n) (0b0100#4 ++ n.toField ++ 0b00001001#8) ∧
    HasCode (.shlr8 n) (0b0100#4 ++ n.toField ++ 0b00011001#8) ∧
    HasCode (.shlr16 n) (0b0100#4 ++ n.toField ++ 0b00101001#8))

/-! ### Branches -/

/-- R287, R289: BF and BT outside a delay slot, taken and not taken. -/
def Obligations.ConditionalBranches : Prop :=
  (∀ (s : State) (disp : BitVec 8), s.delayTarget = none →
    let target := s.pc + 4 + disp.signExtend 32 * 2
    Completes (.bf disp) s (fun t =>
      t.pc = (if s.tBit then s.pc + 2 else target) ∧ t.delayTarget = none ∧ t.slotAfterUntaken = false ∧
      t.intInhibit = false ∧
      t.power = s.power ∧ Frame {} s t) ∧
    Completes (.bt disp) s (fun t =>
      t.pc = (if s.tBit then target else s.pc + 2) ∧ t.delayTarget = none ∧ t.slotAfterUntaken = false ∧
      t.intInhibit = false ∧
      t.power = s.power ∧ Frame {} s t)) ∧
  (∀ (d8 : BitVec 8),
    HasCode (.bf d8) (0b10001011#8 ++ d8) ∧
    HasCode (.bt d8) (0b10001001#8 ++ d8))

/-- R288, R290: BF/S and BT/S outside a delay slot, for both values of the open parameter. The parameter is D21 (log
16). -/
def Obligations.DelayedConditionalBranches : Prop :=
  (∀ (s : State) (disp : BitVec 8), s.cfg.cpu = .sh2 → s.delayTarget = none →
    let target := s.pc + 4 + disp.signExtend 32 * 2
    let notTaken := if s.cfg.bcsSlotCheckAlways then some (s.pc + 4) else none
    Completes (.bfS disp) s (fun t =>
      EndsInSlot s t (if s.tBit then notTaken else some target) (s.tBit && s.cfg.bcsSlotCheckAlways) ∧
      Frame {} s t) ∧
    Completes (.btS disp) s (fun t =>
      EndsInSlot s t (if s.tBit then some target else notTaken) (!s.tBit && s.cfg.bcsSlotCheckAlways) ∧
      Frame {} s t)) ∧
  (∀ (d8 : BitVec 8),
    HasCode (.bfS d8) (0b10001111#8 ++ d8) ∧
    HasCode (.btS d8) (0b10001101#8 ++ d8))

/-- R291, R292, R295, R297: the unconditional branches outside a delay slot. -/
def Obligations.UnconditionalBranches : Prop :=
  (∀ (s : State) (m : Reg) (disp : BitVec 12), s.delayTarget = none →
    Completes (.bra disp) s (fun t =>
      EndsInSlot s t (some (s.pc + 4 + disp.signExtend 32 * 2)) ∧ Frame {} s t) ∧
    (s.cfg.cpu = .sh2 → Completes (.braf m) s (fun t =>
      EndsInSlot s t (some (s.pc + 4 + s.reg m)) ∧ Frame {} s t)) ∧
    Completes (.jmp m) s (fun t => EndsInSlot s t (some (s.reg m)) ∧ Frame {} s t) ∧
    Completes .rts s (fun t => EndsInSlot s t (some s.pr) ∧ Frame {} s t)) ∧
  (∀ (m : Reg) (d12 : BitVec 12),
    HasCode (.bra d12) (0b1010#4 ++ d12) ∧
    HasCode (.braf m) (0b0000#4 ++ m.toField ++ 0b00100011#8) ∧
    HasCode (.jmp m) (0b0100#4 ++ m.toField ++ 0b00101011#8) ∧
    HasCode .rts (0b0000000000001011#16))

/-- R293, R294, R296: the subroutine calls outside a delay slot; PR holds the address after the slot. -/
def Obligations.SubroutineCalls : Prop :=
  (∀ (s : State) (m : Reg) (disp : BitVec 12), s.delayTarget = none →
    Completes (.bsr disp) s (fun t => t.pr = s.pc + 4 ∧
      EndsInSlot s t (some (s.pc + 4 + disp.signExtend 32 * 2)) ∧ Frame { pr := true } s t) ∧
    (s.cfg.cpu = .sh2 → Completes (.bsrf m) s (fun t => t.pr = s.pc + 4 ∧
      EndsInSlot s t (some (s.pc + 4 + s.reg m)) ∧ Frame { pr := true } s t)) ∧
    Completes (.jsr m) s (fun t => t.pr = s.pc + 4 ∧
      EndsInSlot s t (some (s.reg m)) ∧ Frame { pr := true } s t)) ∧
  (∀ (m : Reg) (d12 : BitVec 12),
    HasCode (.bsr d12) (0b1011#4 ++ d12) ∧
    HasCode (.bsrf m) (0b0000#4 ++ m.toField ++ 0b00000011#8) ∧
    HasCode (.jsr m) (0b0100#4 ++ m.toField ++ 0b00001011#8))

/-- R284, R362, R371: an instruction that rewrites the PC takes the slot illegal instruction exception in a delay
slot, whatever T is, with the destination of the branch stacked. The stacked address is the spec's decision D13 (log
5). -/
def Obligations.SlotIllegalInstructions : Prop :=
  ∀ (i : Instr) (s : State) (d : Word), rewritesPc i = true → s.delayTarget = some d →
    exec i s = s.exceptionEntry s.cfg.vecSlotIllegal d none

/-- R108, R361, R371: on the SH-1 the nine SH-2 instructions are general illegal instructions outside a delay slot,
and the decoder does not give them. The stacked address is the spec's decision D13 (log 5). -/
def Obligations.Sh2InstructionsOnSh1 : Prop :=
  ∀ (i : Instr) (s : State), i.sh2Only = true → s.cfg.cpu = .sh1 → s.delayTarget = none →
    exec i s = s.exceptionEntry s.cfg.vecIllegal s.pc none ∧
    decodeWord .sh1 (encodeWord i) = .error (.notOnThisCpu (encodeWord i))

/-! ### System control -/

/-- R311 to R314: CLRT, SETT, CLRMAC and NOP. -/
def Obligations.ClearSetNop : Prop :=
  (∀ s : State,
    WritesT .clrt s false ∧ WritesT .sett s true ∧
    Completes .clrmac s (fun t =>
      t.mach = 0 ∧ t.macl = 0 ∧ Frame { mach := true, macl := true } s t ∧ Ends s t false) ∧
    Completes .nop s (fun t => Frame {} s t ∧ Ends s t false)) ∧
  HasCode .clrt (0b0000000000001000#16) ∧
  HasCode .sett (0b0000000000011000#16) ∧
  HasCode .clrmac (0b0000000000101000#16) ∧
  HasCode .nop (0b0000000000001001#16)

/-- R316 to R318, R323 to R325: LDC and LDS from a register.  A load of SR keeps only the bits that exist; MACH keeps
ten bits on the SH-1 and is held there as their sign extension, which is DEDUCED (log 32). -/
def Obligations.ControlLoads : Prop :=
  (∀ (s : State) (m : Reg),
    Completes (.ldcSr m) s (fun t => t.sr = s.reg m &&& 0x000003F3 ∧
      Frame { srBits := List.range 32 } s t ∧ Ends s t true) ∧
    Completes (.ldcGbr m) s (fun t => t.gbr = s.reg m ∧ Frame { gbr := true } s t ∧ Ends s t true) ∧
    Completes (.ldcVbr m) s (fun t => t.vbr = s.reg m ∧ Frame { vbr := true } s t ∧ Ends s t true) ∧
    Completes (.ldsMach m) s (fun t =>
      t.mach = (if s.cfg.cpu = .sh1 then ((s.reg m).extractLsb' 0 10).signExtend 32 else s.reg m) ∧
      Frame { mach := true } s t ∧ Ends s t true) ∧
    Completes (.ldsMacl m) s (fun t => t.macl = s.reg m ∧ Frame { macl := true } s t ∧ Ends s t true) ∧
    Completes (.ldsPr m) s (fun t => t.pr = s.reg m ∧ Frame { pr := true } s t ∧ Ends s t true)) ∧
  (∀ (m : Reg),
    HasCode (.ldcSr m) (0b0100#4 ++ m.toField ++ 0b00001110#8) ∧
    HasCode (.ldcGbr m) (0b0100#4 ++ m.toField ++ 0b00011110#8) ∧
    HasCode (.ldcVbr m) (0b0100#4 ++ m.toField ++ 0b00101110#8) ∧
    HasCode (.ldsMach m) (0b0100#4 ++ m.toField ++ 0b00001010#8) ∧
    HasCode (.ldsMacl m) (0b0100#4 ++ m.toField ++ 0b00011010#8) ∧
    HasCode (.ldsPr m) (0b0100#4 ++ m.toField ++ 0b00101010#8))

/-- R319 to R321, R326 to R328: LDC.L and LDS.L. A misaligned access takes the address error exception with nothing
changed and the next instruction's address stacked: the spec's own decisions D4, D13, D22, D23, here the model's
choice (logs 5 and 12). That the SH-1's MACH is held as the sign extension of its ten bits is DEDUCED (log 32). -/
def Obligations.ControlLoadsFromMemory : Prop :=
  (∀ (s : State) (m : Reg),
    (PopsInto (.ldcLSr m) s m { srBits := List.range 32 } (fun t v => t.sr = v &&& 0x000003F3) ∧
      MisalignedTraps (.ldcLSr m) s 4 (s.reg m)) ∧
    (PopsInto (.ldcLGbr m) s m { gbr := true } (fun t v => t.gbr = v) ∧
      MisalignedTraps (.ldcLGbr m) s 4 (s.reg m)) ∧
    (PopsInto (.ldcLVbr m) s m { vbr := true } (fun t v => t.vbr = v) ∧
      MisalignedTraps (.ldcLVbr m) s 4 (s.reg m)) ∧
    (PopsInto (.ldsLMach m) s m { mach := true }
        (fun t v => t.mach = if s.cfg.cpu = .sh1 then (v.extractLsb' 0 10).signExtend 32 else v) ∧
      MisalignedTraps (.ldsLMach m) s 4 (s.reg m)) ∧
    (PopsInto (.ldsLMacl m) s m { macl := true } (fun t v => t.macl = v) ∧
      MisalignedTraps (.ldsLMacl m) s 4 (s.reg m)) ∧
    (PopsInto (.ldsLPr m) s m { pr := true } (fun t v => t.pr = v) ∧
      MisalignedTraps (.ldsLPr m) s 4 (s.reg m))) ∧
  (∀ (m : Reg),
    HasCode (.ldcLSr m) (0b0100#4 ++ m.toField ++ 0b00000111#8) ∧
    HasCode (.ldcLGbr m) (0b0100#4 ++ m.toField ++ 0b00010111#8) ∧
    HasCode (.ldcLVbr m) (0b0100#4 ++ m.toField ++ 0b00100111#8) ∧
    HasCode (.ldsLMach m) (0b0100#4 ++ m.toField ++ 0b00000110#8) ∧
    HasCode (.ldsLMacl m) (0b0100#4 ++ m.toField ++ 0b00010110#8) ∧
    HasCode (.ldsLPr m) (0b0100#4 ++ m.toField ++ 0b00100110#8))

/-- R329 to R331, R335 to R337: STC and STS to a register. -/
def Obligations.ControlStores : Prop :=
  (∀ (s : State) (n : Reg),
    Completes (.stcSr n) s (fun t => t.reg n = s.sr ∧ Frame { regs := [n] } s t ∧ Ends s t true) ∧
    Completes (.stcGbr n) s (fun t => t.reg n = s.gbr ∧ Frame { regs := [n] } s t ∧ Ends s t true) ∧
    Completes (.stcVbr n) s (fun t => t.reg n = s.vbr ∧ Frame { regs := [n] } s t ∧ Ends s t true) ∧
    Completes (.stsMach n) s (fun t => t.reg n = s.mach ∧ Frame { regs := [n] } s t ∧ Ends s t true) ∧
    Completes (.stsMacl n) s (fun t => t.reg n = s.macl ∧ Frame { regs := [n] } s t ∧ Ends s t true) ∧
    Completes (.stsPr n) s (fun t => t.reg n = s.pr ∧ Frame { regs := [n] } s t ∧ Ends s t true)) ∧
  (∀ (n : Reg),
    HasCode (.stcSr n) (0b0000#4 ++ n.toField ++ 0b00000010#8) ∧
    HasCode (.stcGbr n) (0b0000#4 ++ n.toField ++ 0b00010010#8) ∧
    HasCode (.stcVbr n) (0b0000#4 ++ n.toField ++ 0b00100010#8) ∧
    HasCode (.stsMach n) (0b0000#4 ++ n.toField ++ 0b00001010#8) ∧
    HasCode (.stsMacl n) (0b0000#4 ++ n.toField ++ 0b00011010#8) ∧
    HasCode (.stsPr n) (0b0000#4 ++ n.toField ++ 0b00101010#8))

/-- R332 to R334, R338 to R340: STC.L and STS.L. A misaligned access takes the address error exception with nothing
changed and the next instruction's address stacked: the spec's own decisions D4, D13, D22, D23, here the model's
choice (logs 5 and 12). -/
def Obligations.ControlStoresToMemory : Prop :=
  (∀ (s : State) (n : Reg),
    (PushesFrom (.stcLSr n) s n s.sr ∧ MisalignedTraps (.stcLSr n) s 4 (s.reg n - 4)) ∧
    (PushesFrom (.stcLGbr n) s n s.gbr ∧ MisalignedTraps (.stcLGbr n) s 4 (s.reg n - 4)) ∧
    (PushesFrom (.stcLVbr n) s n s.vbr ∧ MisalignedTraps (.stcLVbr n) s 4 (s.reg n - 4)) ∧
    (PushesFrom (.stsLMach n) s n s.mach ∧ MisalignedTraps (.stsLMach n) s 4 (s.reg n - 4)) ∧
    (PushesFrom (.stsLMacl n) s n s.macl ∧ MisalignedTraps (.stsLMacl n) s 4 (s.reg n - 4)) ∧
    (PushesFrom (.stsLPr n) s n s.pr ∧ MisalignedTraps (.stsLPr n) s 4 (s.reg n - 4))) ∧
  (∀ (n : Reg),
    HasCode (.stcLSr n) (0b0100#4 ++ n.toField ++ 0b00000011#8) ∧
    HasCode (.stcLGbr n) (0b0100#4 ++ n.toField ++ 0b00010011#8) ∧
    HasCode (.stcLVbr n) (0b0100#4 ++ n.toField ++ 0b00100011#8) ∧
    HasCode (.stsLMach n) (0b0100#4 ++ n.toField ++ 0b00000010#8) ∧
    HasCode (.stsLMacl n) (0b0100#4 ++ n.toField ++ 0b00010010#8) ∧
    HasCode (.stsLPr n) (0b0100#4 ++ n.toField ++ 0b00100010#8))

/-- R341: RTE outside a delay slot. A misaligned access takes the address error exception with nothing changed and the
next instruction's address stacked: the spec's own decisions D4, D13, D22, D23, here the model's choice (logs 5 and
12). -/
def Obligations.ReturnFromException : Prop :=
  (∀ s : State, s.delayTarget = none →
    (s.can .read 4 (s.reg 15) → s.can .read 4 (s.reg 15 + 4) →
      Completes .rte s fun t =>
        t.sr = s.loaded 4 (s.reg 15 + 4) &&& 0x000003F3 ∧ t.reg 15 = s.reg 15 + 8 ∧
        Frame { regs := [15], srBits := List.range 32 } s t ∧ EndsInSlot s t (some (s.loaded 4 (s.reg 15)))) ∧
    MisalignedTraps .rte s 4 (s.reg 15)) ∧
  HasCode .rte (0b0000000000101011#16)

/-- R342: SLEEP puts the CPU to sleep with the pc already advanced, in a delay slot to the branch destination, and
changes nothing else. The pc at rest is the spec's decision D18 (log 10). -/
def Obligations.SleepInstruction : Prop :=
  (∀ s : State, Completes .sleep s fun t =>
    t.power = .sleep ∧ t.delayTarget = none ∧ t.slotAfterUntaken = false ∧ t.intInhibit = false ∧
    t.pc = (match s.delayTarget with
      | some d => d
      | none => s.pc + 2) ∧ Frame {} s t) ∧
  HasCode .sleep (0b0000000000011011#16)

/-- R343: TRAPA outside a delay slot. -/
def Obligations.TrapAlways : Prop :=
  (∀ (s : State) (imm : BitVec 8), s.delayTarget = none → s.canEnter imm →
    Completes (.trapa imm) s fun t =>
      Entered s t imm (s.pc + 2) ∧ Frame { regs := [15], mem := [(s.reg 15 - 8, 8)] } s t) ∧
  (∀ (imm : BitVec 8),
    HasCode (.trapa imm) (0b11000011#8 ++ imm))

/-! ### Exceptions, interrupts, reset -/

/-- R370, R372, R376: exception entry pushes SR and the return address, leaves SR alone but for an interrupt's mask,
and changes nothing else. The order of the pushes and SR at entry are the spec's decision D16 (log 6), the mask's is
D14 (log 7). -/
def Obligations.ExceptionEntrySequence : Prop :=
  ∀ (s : State) (vec : BitVec 8) (ret : Word) (mask : Option (BitVec 4)), s.canEnter vec →
    ∃ t, s.exceptionEntry vec ret mask = .next t ∧ Entered s t vec ret ∧
      (match mask with
       | none => Frame { regs := [15], mem := [(s.reg 15 - 8, 8)] } s t
       | some l => t.imask = l ∧ Frame { regs := [15], srBits := [4, 5, 6, 7], mem := [(s.reg 15 - 8, 8)] } s t)

/-- R381: a misaligned or refused access inside exception entry is a double fault, and nothing else is. The double
fault is the spec's decision D25 (log 21). -/
def Obligations.DoubleFaults : Prop :=
  ∀ (s : State) (vec : BitVec 8) (ret : Word) (mask : Option (BitVec 4)),
    s.exceptionEntry vec ret mask = .fault .doubleFault ↔ ¬ s.canEnter vec

/-- Derived from R341, R370, R380: RTE after exception entry restores SR, R15 and every other register, and goes back
to the stacked address. The entry follows the spec's decisions D13 and D16 (logs 5 and 6). -/
def Obligations.ReturnUndoesEntry : Prop :=
  ∀ (s t : State) (vec : BitVec 8) (ret : Word) (mask : Option (BitVec 4)),
    s.exceptionEntry vec ret mask = .next t → s.sr &&& ~~~0x000003F3 = 0 →
    s.can .read 4 (s.reg 15 - 8) → s.can .read 4 (s.reg 15 - 4) →
    Completes .rte t fun u =>
      (∀ r, u.reg r = s.reg r) ∧ u.sr = s.sr ∧ u.delayTarget = some ret ∧
      u.gbr = s.gbr ∧ u.vbr = s.vbr ∧ u.mach = s.mach ∧ u.macl = s.macl ∧ u.pr = s.pr ∧ u.mem = t.mem

/-- R374 to R376: when the schedule accepts, when a request has stayed acceptable for as long as it can, or asleep, a
step takes the offered request of the highest level among the acceptable ones, stacks the address of the instruction not
yet executed, raises the mask to its level, 15 for NMI, and leaves everything else as it was; a boundary that is passed
over lets every acceptable request wait once more and one that is not acceptable start again. Which of equal levels, when
and how a wait is counted are the model's (logs 8 and 9). Levels against the mask and the mask's new value are the spec's
decision D14 (log 7), the stacked address is D13 (log 5), the finite wait is D15. -/
def Obligations.InterruptAcceptance : Prop :=
  (∀ (s : State) (q : IntRequest), s.resetRequest = none → s.bestRequest = some q →
    (s.power = .sleep ∨ Config.acceptHere s.acceptedCount s.passedCount = true ∨
      ∃ r ∈ s.pending, s.acceptable r = true ∧ Config.acceptDelay s.acceptedCount ≤ waitOf s.waits r) →
    s.canEnter q.vec →
    q ∈ s.pending ∧ s.intInhibit = false ∧ s.delayTarget = none ∧
    (q.level.val = 16 ∨ q.level.val > s.imask.toNat) ∧
    (∀ r ∈ s.pending, (r.level.val = 16 ∨ r.level.val > s.imask.toNat) → r.level.val ≤ q.level.val) ∧
    ∃ t, step s = .next t ∧ Entered s t q.vec s.pc ∧ t.imask.toNat = min q.level.val 15 ∧
      (∀ r, r ≠ 15 → t.reg r = s.reg r) ∧
      (∀ j, j < 32 → j ∉ [4, 5, 6, 7] → t.sr.getLsbD j = s.sr.getLsbD j) ∧
      t.gbr = s.gbr ∧ t.vbr = s.vbr ∧ t.mach = s.mach ∧ t.macl = s.macl ∧ t.pr = s.pr ∧
      (∀ b : Word, ¬ inRange b (s.reg 15 - 8, 8) → t.mem.byte b = s.mem.byte b) ∧
      t.lastAccepted = some q ∧ t.acceptedCount = s.acceptedCount + 1 ∧
      (t.pending = s.pending ∨ t.pending = s.pending.erase q) ∧
      t.resetRequest = none ∧ t.cfg = s.cfg) ∧
  (∀ (s : State) (q : IntRequest), q ∈ s.pending →
    waitOf s.passBoundary.waits q = if s.acceptable q then waitOf s.waits q + 1 else 0)

/-- R374, R378: directly after a delayed branch or an interrupt-disabled instruction, and when every offered request
is masked, no interrupt is accepted: a running CPU executes an instruction, with no request waiting any more, a sleeping
one waits unchanged. The comparison with the mask is the spec's decision D14 (log 7), sleep is D18 (log 10), the waiting
step that changes nothing is the model's, the record of waits too (log 8). -/
def Obligations.NothingAccepted : Prop :=
  ∀ s : State, s.resetRequest = none →
    (s.intInhibit = true ∨ s.delayTarget ≠ none ∨
      ∀ q ∈ s.pending, q.level.val ≠ 16 ∧ q.level.val ≤ s.imask.toNat) →
    (s.power = .run → step s = instructionStep { s with waits := [] }) ∧ (s.power = .sleep → step s = .next s)

/-- R400, R402, R403: a reset overrides everything; PC and R15 are the values the launch supplies for this kind of
reset, or by default come big-endian from the vector table; I3 to I0 become 1111, the reserved bits of SR and VBR become
0, nothing is pending, memory stays; a platform that refuses one of the two longwords gets no reset step.  Which addresses
hold the two longwords is the model's choice, PRESUMED (log 3). -/
def Obligations.ResetStep : Prop :=
  ∀ (s : State) (k : ResetKind), s.resetRequest = some k →
    let source : ResetSource := match k with
      | .powerOn => s.cfg.powerOnReset
      | .manual => s.cfg.manualReset
    let a : Word := match k with
      | .powerOn => 0
      | .manual => 8
    (∀ pc sp, source = .values pc sp → ∃ t, step s = .next t ∧ AfterReset s t pc sp) ∧
    (source = .table → memAdmits s.cfg a 4 .read = true → memAdmits s.cfg (a + 4) 4 .read = true →
      ∃ t, step s = .next t ∧ AfterReset s t
        (s.mem.byte a ++ s.mem.byte (a + 1) ++ s.mem.byte (a + 2) ++ s.mem.byte (a + 3))
        (s.mem.byte (a + 4) ++ s.mem.byte (a + 5) ++ s.mem.byte (a + 6) ++ s.mem.byte (a + 7))) ∧
    (source = .table → memAdmits s.cfg a 4 .read = false ∨ memAdmits s.cfg (a + 4) 4 .read = false →
      step s = .refused .noResetVector)

/-- R401, the values the spec gives: the interrupt mask, the reserved bits, VBR, the hidden state. -/
def Obligations.ResetState : Prop :=
  State.reset.imask = 15 ∧ State.reset.sr &&& ~~~0x000003F3 = 0 ∧ State.reset.vbr = 0 ∧
  State.reset.delayTarget = none ∧ State.reset.intInhibit = false ∧ State.reset.power = .run

/-! ### The step -/

/-- A step runs the decoded instruction (R15, R80, R283): when nothing else is to be done and the two bytes at pc decode
to an instruction of the CPU, the step is that instruction's meaning, at the state with the recent stores one
instruction older. -/
def Obligations.StepRunsDecoded : Prop :=
  ∀ (s : State) (i : Instr), s.resetRequest = none → s.power = .run → s.acceptedNow = none →
    alignedHalf s.pc = true → memAdmits s.cfg s.pc 2 .fetch = true → littleEndian s.cfg s.pc = false →
    s.stale s.pc = false → decode s.cfg.cpu [s.mem.byte s.pc, s.mem.byte (s.pc + 1)] = .ok (i, []) →
    step s = exec i s.passBoundary.ageStores ∧ i.wellFormed s.cfg.cpu = true

/-- R54, R108, R361 to R363, R371, R377: an odd pc takes the address error exception with pc stacked, before anything
else; a code that is no instruction takes the illegal instruction exception of its place. The stacked addresses are
the spec's decision D13 (log 5). -/
def Obligations.StepTakesFetchExceptions : Prop :=
  ∀ s : State, s.resetRequest = none → s.power = .run → s.acceptedNow = none →
    (alignedHalf s.pc = false →
      step s = s.passBoundary.exceptionEntry s.cfg.vecCpuAddrErr s.pc none) ∧
    (∀ w, s.fetch = .code w → (∀ i, decodeWord s.cfg.cpu w ≠ .ok i) →
      step s = match s.delayTarget with
        | some d => s.passBoundary.ageStores.exceptionEntry s.cfg.vecSlotIllegal d none
        | none => s.passBoundary.ageStores.exceptionEntry s.cfg.vecIllegal s.pc none)

/-- Derived from R66, R415 (the treatment of U6): the step that would execute a word stored to by one of the last three
instructions stops, with no branch taken and no exception entered between.  What is remembered is said clause by clause:
the stop; which words a record covers; every instruction that completes adds its own stores for three instructions, and
one that ends with a branch taken leaves nothing (an exception entry leaves nothing either: Entered, O39, O40, O43); every
step that executes an instruction lets the records age by one.  The last clause is one whole case: MOV.W into the very
next word. The stop is the treatment the spec gives for U6 (D20, log 15). -/
def Obligations.StoreIntoNextWordStops : Prop :=
  (∀ s : State, s.resetRequest = none → s.power = .run → s.acceptedNow = none → alignedHalf s.pc = true →
    memAdmits s.cfg s.pc 2 .fetch = true → littleEndian s.cfg s.pc = false → s.stale s.pc = true →
    step s = .fault (.staleFetch s.pc)) ∧
  (∀ (s : State) (a : Word), s.stale a = true ↔
    ∃ r ∈ s.recentStores, r.addr.toNat < a.toNat + 2 ∧ a.toNat < r.addr.toNat + r.bytes) ∧
  (∀ (i : Instr) (s : State), legal i s → (∀ imm, i ≠ .trapa imm) → s.accessOutcome (accesses i s) = .allowed →
    ∃ t, exec i s = .next t ∧
      t.recentStores = if branchesHere i s then [] else storesOf (accesses i s) ++ s.recentStores) ∧
  (∀ s : State, s.ageStores.recentStores =
    (s.recentStores.filter fun r => 1 < r.left).map fun r => { r with left := r.left - 1 }) ∧
  (∀ (s t : State) (m n : Reg), exec (.movWStore m n) s = .next t → s.delayTarget = none → s.reg n = s.pc + 2 →
    s.can .write 2 (s.pc + 2) → memAdmits s.cfg (s.pc + 2) 2 .fetch = true →
    littleEndian s.cfg (s.pc + 2) = false → s.resetRequest = none → s.power = .run → t.acceptedNow = none →
    step t = .fault (.staleFetch (s.pc + 2)))

/-! ### Encoding -/

/-- R103 to R107: codes written out from the tables of each family decode to their instructions. -/
def Obligations.SampleCodes : Prop :=
  decodeWord .sh2 0b0110000100000011 = .ok (.mov 0 1) ∧
  decodeWord .sh2 0b1000010100010010 = .ok (.movWLoadDisp 2 1) ∧
  decodeWord .sh2 0b0011000100001110 = .ok (.addc 0 1) ∧
  decodeWord .sh2 0b0100001000101111 = .ok (.macW 2 2) ∧
  decodeWord .sh2 0b1100110110000000 = .ok (.andB 0x80) ∧
  decodeWord .sh2 0b0100000000100100 = .ok (.rotcl 0) ∧
  decodeWord .sh2 0b1010000000000010 = .ok (.bra 2) ∧
  decodeWord .sh2 0b1000111100000010 = .ok (.bfS 2) ∧
  decodeWord .sh2 0b1100001100100000 = .ok (.trapa 0x20) ∧
  decodeWord .sh2 0b1111111111111111 = .error (.unassigned 0xFFFF) ∧
  decodeWord .sh1 0b0011000100000101 = .error (.notOnThisCpu 0x3105)

/-- Decode and encode agree: every well-formed instruction, with every operand at every value, is read back from its
bytes, and the bytes after it are left over. -/
def Obligations.DecodeOfEncode : Prop :=
  ∀ (cpu : Cpu) (i : Instr) (rest : List Byte), i.wellFormed cpu = true →
    decode cpu (encodeBytes i ++ rest) = .ok (i, rest)

/-- R111: every assigned code has one meaning: a code that decodes is the code of the instruction it decodes to, and the
CPU has that instruction. -/
def Obligations.EncodeOfDecode : Prop :=
  ∀ (cpu : Cpu) (w : Half) (i : Instr), decodeWord cpu w = .ok i →
    encodeWord i = w ∧ i.wellFormed cpu = true

/-! ### The whole machine -/

/-- The invariant holds after reset. -/
def Obligations.ResetInvariant : Prop := State.reset.Inv

/-- The invariant is kept by every step from every state that has it (R26, R31, R286, R392, and the canonical form of
memory). That the SH-1's MACH is held sign-extended is log 32. -/
def Obligations.StepKeepsInvariant : Prop := ∀ s t : State, s.Inv → step s = .next t → t.Inv

/-- No step changes the parameters of the launch (R7). That they are a field of State is log 22. -/
def Obligations.StepKeepsParameters : Prop := ∀ s t : State, step s = .next t → t.cfg = s.cfg

/-- R55, R56, R60, R62, R71, R363, R377: for every instruction in a state where it may run its own course, its data
accesses in their order decide: all allowed, it completes; the first that is not is misaligned, it takes the address
error exception from the state before it; refused, the machine stops. That nothing is changed and which address is
stacked are the spec's decisions D4, D13, D22, D23 (logs 5 and 12), the platform's refusal is D5 (log 20). -/
def Obligations.AccessesDecideOutcome : Prop :=
  ∀ (i : Instr) (s : State), legal i s →
    match s.accessOutcome (accesses i s) with
    | .allowed => ∃ t, exec i s = .next t
    | .misaligned => TakesAddressError i s
    | .refused kind a => exec i s = .fault (.notAdmitted kind a)

/-- The bits of SR an instruction may write (R25, R27). -/
def statusBitsWritten : Instr → List Nat
  | .addc _ _ | .addv _ _ | .cmpEqImm _ | .cmpEq _ _ | .cmpHs _ _ | .cmpGe _ _ | .cmpHi _ _ | .cmpGt _ _ | .cmpPl _
  | .cmpPz _ | .cmpStr _ _ | .dt _ | .negc _ _ | .subc _ _ | .subv _ _ | .tasB _ | .tst _ _ | .tstImm _ | .tstB _
  | .rotl _ | .rotcl _ | .shal _ | .shll _ | .rotr _ | .rotcr _ | .shar _ | .shlr _ | .clrt | .sett => [0]
  | .div1 _ _ => [0, 8]
  | .div0s _ _ | .div0u => [0, 8, 9]
  | .ldcSr _ | .ldcLSr _ | .rte => [0, 1, 4, 5, 6, 7, 8, 9]
  | _ => []

/-- R25, R27: whatever becomes of an instruction (its own effect or an exception), it changes no bit of SR but those its
row of the table names; for a state whose reserved bits are 0. -/
def Obligations.StatusBitsWritten : Prop :=
  ∀ (i : Instr) (s t : State), s.srReservedZero → exec i s = .next t →
    ∀ j, j < 32 → j ∉ statusBitsWritten i → t.sr.getLsbD j = s.sr.getLsbD j

/-- R32, R370, and the rules of LDC: only the instructions named write MACH, MACL, PR, GBR and VBR; exception entry, and
with it a misaligned access of any instruction, writes none of them. -/
def Obligations.SpecialRegisterWriters : Prop :=
  (∀ (i : Instr) (s t : State), exec i s = .next t →
    (t.mach ≠ s.mach → i = .clrmac ∨ (∃ m n, i = .dmulsL m n ∨ i = .dmuluL m n ∨ i = .macL m n ∨ i = .macW m n) ∨
      ∃ m, i = .ldsMach m ∨ i = .ldsLMach m) ∧
    (t.macl ≠ s.macl → i = .clrmac ∨ (∃ m n, i = .dmulsL m n ∨ i = .dmuluL m n ∨ i = .macL m n ∨ i = .macW m n ∨
      i = .mulL m n ∨ i = .mulsW m n ∨ i = .muluW m n) ∨ ∃ m, i = .ldsMacl m ∨ i = .ldsLMacl m) ∧
    (t.pr ≠ s.pr → (∃ d, i = .bsr d) ∨ ∃ m, i = .bsrf m ∨ i = .jsr m ∨ i = .ldsPr m ∨ i = .ldsLPr m) ∧
    (t.gbr ≠ s.gbr → ∃ m, i = .ldcGbr m ∨ i = .ldcLGbr m) ∧
    (t.vbr ≠ s.vbr → ∃ m, i = .ldcVbr m ∨ i = .ldcLVbr m)) ∧
  (∀ (s t : State) (vec : BitVec 8) (ret : Word) (mask : Option (BitVec 4)), s.exceptionEntry vec ret mask = .next t →
    t.mach = s.mach ∧ t.macl = s.macl ∧ t.pr = s.pr ∧ t.gbr = s.gbr ∧ t.vbr = s.vbr) ∧
  (∀ (i : Instr) (s t : State), TakesAddressError i s → exec i s = .next t →
    t.mach = s.mach ∧ t.macl = s.macl ∧ t.pr = s.pr ∧ t.gbr = s.gbr ∧ t.vbr = s.vbr)

/-- R52, R57: a longword written lies big-endian in memory, its halves and its last byte are read where R52 says, and
in a little-endian region the bytes lie the other way round. The byte order is the spec's decision D2 (log 23), the
reversed one D3 (log 19). -/
def Obligations.ByteOrder : Prop :=
  ∀ (m : Memory) (a v : Word),
    let big := m.setLong false a v
    let little := m.setLong true a v
    big.byte a = v.extractLsb' 24 8 ∧ big.byte (a + 1) = v.extractLsb' 16 8 ∧
    big.byte (a + 2) = v.extractLsb' 8 8 ∧ big.byte (a + 3) = v.extractLsb' 0 8 ∧
    big.half false a = v.extractLsb' 16 16 ∧ big.half false (a + 2) = v.extractLsb' 0 16 ∧
    little.byte a = v.extractLsb' 0 8 ∧ little.byte (a + 1) = v.extractLsb' 8 8 ∧
    little.byte (a + 2) = v.extractLsb' 16 8 ∧ little.byte (a + 3) = v.extractLsb' 24 8

/-- Two memories in the canonical form that read the same everywhere are the same list. The canonical form is the
model's (log 2). -/
def Obligations.MemoryCanonical : Prop :=
  ∀ m m' : Memory, m.wf = true → m'.wf = true → (∀ a : Word, m.byte a = m'.byte a) → m = m'
end

