-- ==== Sys2Proof/Laws/Decode.lean ====
section
/-! SUPPORT. The digits of an instruction code: a digit taken out of a code is the digit put in, a field cut into
digits and put together is the field, a register number survives its field.  With them the decoder can be run on an
encoded instruction whose operands are not known. -/
namespace Sys2Proof

@[simp] theorem code_digit3 (a b c d : BitVec 4) : (code a b c d).extractLsb' 12 4 = a := by
  unfold code
  rw [BitVec.extractLsb'_append_eq_of_le (by omega), BitVec.extractLsb'_append_eq_of_le (by omega),
    BitVec.extractLsb'_append_eq_of_le (by omega)]
  simp

@[simp] theorem code_digit2 (a b c d : BitVec 4) : (code a b c d).extractLsb' 8 4 = b := by
  unfold code
  rw [BitVec.extractLsb'_append_eq_of_le (by omega), BitVec.extractLsb'_append_eq_of_le (by omega),
    BitVec.extractLsb'_append_eq_of_add_le (by omega)]
  simp

@[simp] theorem code_digit1 (a b c d : BitVec 4) : (code a b c d).extractLsb' 4 4 = c := by
  unfold code
  rw [BitVec.extractLsb'_append_eq_of_le (by omega), BitVec.extractLsb'_append_eq_of_add_le (by omega)]
  simp

@[simp] theorem code_digit0 (a b c d : BitVec 4) : (code a b c d).extractLsb' 0 4 = d := by
  unfold code
  rw [BitVec.extractLsb'_append_eq_of_add_le (by omega)]
  simp

/-- The bitwise AND of two codes, digit by digit. -/
theorem code_and (a b c d a' b' c' d' : BitVec 4) :
    code a b c d &&& code a' b' c' d' = code (a &&& a') (b &&& b') (c &&& c') (d &&& d') := by
  change ((a ++ b ++ c ++ d : BitVec (4 + 4 + 4 + 4)) &&& (a' ++ b' ++ c' ++ d' : BitVec (4 + 4 + 4 + 4)))
    = (((a &&& a') ++ (b &&& b') ++ (c &&& c') ++ (d &&& d') : BitVec (4 + 4 + 4 + 4)))
  rw [BitVec.and_append, BitVec.and_append, BitVec.and_append]

@[simp] theorem Reg.ofField_toField (r : Reg) : Reg.ofField r.toField = r := rfl

@[simp] theorem Reg.toField_ofField (f : BitVec 4) : (Reg.ofField f).toField = f := rfl

@[simp] theorem field8_digits (v : BitVec 8) : v.extractLsb' 4 4 ++ v.extractLsb' 0 4 = v := by
  rw [BitVec.extractLsb'_append_extractLsb'_eq_extractLsb' (by rfl), BitVec.extractLsb'_eq_self]

@[simp] theorem field12_digits (v : BitVec 12) : v.extractLsb' 8 4 ++ v.extractLsb' 4 4 ++ v.extractLsb' 0 4 = v := by
  rw [BitVec.extractLsb'_append_extractLsb'_eq_extractLsb' (by rfl),
    BitVec.extractLsb'_append_extractLsb'_eq_extractLsb' (by rfl), BitVec.extractLsb'_eq_self]

/-- The bytes of a code, put together. -/
@[simp] theorem bytes_append (w : Half) : w.extractLsb' 8 8 ++ w.extractLsb' 0 8 = w := by
  rw [BitVec.extractLsb'_append_extractLsb'_eq_extractLsb' (by rfl), BitVec.extractLsb'_eq_self]

/-- Decoding a code made of four digits. -/
theorem decodeWord_code (cpu : Cpu) (a b c d : BitVec 4) :
    decodeWord cpu (code a b c d) =
      match decodeDigits a b c d with
      | none => .error (.unassigned (code a b c d))
      | some i => if i.wellFormed cpu then .ok i else .error (.notOnThisCpu (code a b c d)) := by
  unfold decodeWord
  rw [code_digit3, code_digit2, code_digit1, code_digit0]
  all_goals cases decodeDigits a b c d <;> rfl

end Sys2Proof
end

