-- ==== Sys2Proof/Laws/Memory.lean ====
section
/-! SUPPORT. The laws of memory: a read after a write to the same place gives the value written, a write leaves every
other place alone, and every write keeps the canonical form. -/
namespace Sys2Proof.Machine

/-! ### One byte -/

theorem Memory.get_drop_same (m : Memory) (a : Nat) : (m.drop a).get a = Memory.unlisted := by
  induction m with
  | nil => rfl
  | cons c rest ih =>
    obtain ⟨k, v⟩ := c
    by_cases h : k = a <;> simp [Memory.drop, Memory.get, h, ih]

theorem Memory.get_drop_ne (m : Memory) {a b : Nat} (h : a ≠ b) : (m.drop a).get b = m.get b := by
  induction m with
  | nil => rfl
  | cons c rest ih =>
    obtain ⟨k, v⟩ := c
    by_cases hk : k = a
    · subst hk; simp [Memory.drop, Memory.get, ih, h]
    · simp [Memory.drop, Memory.get, hk, ih]

theorem Memory.get_place_drop (m : Memory) (a : Nat) (v : Byte) : ((m.drop a).place a v).get a = v := by
  induction m with
  | nil => simp [Memory.drop, Memory.place, Memory.get]
  | cons c rest ih =>
    obtain ⟨k, x⟩ := c
    by_cases hk : k = a
    · simpa [Memory.drop, hk] using ih
    · by_cases hl : a < k
      · simp [Memory.drop, Memory.place, Memory.get, hk, hl]
      · simp [Memory.drop, Memory.place, Memory.get, hk, hl, ih]

theorem Memory.get_place_ne (m : Memory) {a b : Nat} (v : Byte) (h : a ≠ b) : (m.place a v).get b = m.get b := by
  induction m with
  | nil => simp [Memory.place, Memory.get, h]
  | cons c rest ih =>
    obtain ⟨k, x⟩ := c
    by_cases hl : a < k
    · simp [Memory.place, Memory.get, hl, h]
    · simp only [Memory.place, hl, if_false, Memory.get, ih]

/-- A read after a write to the same address gives the value written. -/
theorem Memory.get_set_same (m : Memory) (a : Nat) (v : Byte) : (m.set a v).get a = v := by
  by_cases h : v = Memory.unlisted
  · simp [Memory.set, h, Memory.get_drop_same]
  · simp [Memory.set, h, Memory.get_place_drop]

/-- A write leaves every other address alone. -/
theorem Memory.get_set_ne (m : Memory) {a b : Nat} (v : Byte) (h : a ≠ b) : (m.set a v).get b = m.get b := by
  by_cases hv : v = Memory.unlisted
  · simp [Memory.set, hv, Memory.get_drop_ne m h]
  · simp [Memory.set, hv, Memory.get_place_ne _ v h, Memory.get_drop_ne m h]

/-! ### The canonical form -/

theorem Memory.wfFrom_mono {lo lo' : Nat} (h : lo' ≤ lo) (m : Memory) (hm : Memory.wfFrom lo m = true) :
    Memory.wfFrom lo' m = true := by
  cases m with
  | nil => rfl
  | cons c rest =>
    obtain ⟨k, v⟩ := c
    simp only [Memory.wfFrom, Bool.and_eq_true, decide_eq_true_eq] at hm ⊢
    exact ⟨⟨⟨le_trans h hm.1.1.1, hm.1.1.2⟩, hm.1.2⟩, hm.2⟩

theorem Memory.wfFrom_drop {lo : Nat} (m : Memory) (a : Nat) (hm : Memory.wfFrom lo m = true) :
    Memory.wfFrom lo (m.drop a) = true := by
  induction m generalizing lo with
  | nil => rfl
  | cons c rest ih =>
    obtain ⟨k, v⟩ := c
    simp only [Memory.wfFrom, Bool.and_eq_true, decide_eq_true_eq] at hm
    by_cases h : k = a
    · simp only [Memory.drop, h, if_true]
      exact Memory.wfFrom_mono (by omega) _ (ih hm.2)
    · simp only [Memory.drop, h, if_false, Memory.wfFrom, Bool.and_eq_true, decide_eq_true_eq]
      exact ⟨hm.1, ih hm.2⟩

theorem Memory.wfFrom_place {lo : Nat} (m : Memory) {a : Nat} {v : Byte} (hm : Memory.wfFrom lo (m.drop a) = true)
    (ha : a < 2 ^ 32) (hl : lo ≤ a) (hv : v ≠ Memory.unlisted) :
    Memory.wfFrom lo ((m.drop a).place a v) = true := by
  induction m generalizing lo with
  | nil => simp [Memory.drop, Memory.place, Memory.wfFrom, hl, hv]; omega
  | cons c rest ih =>
    obtain ⟨k, x⟩ := c
    by_cases h : k = a
    · simp only [Memory.drop, h, if_true] at hm ⊢
      exact ih hm hl
    · simp only [Memory.drop, h, if_false] at hm ⊢
      simp only [Memory.wfFrom, Bool.and_eq_true, decide_eq_true_eq] at hm
      by_cases hk : a < k
      · simp only [Memory.place, hk, if_true, Memory.wfFrom, Bool.and_eq_true, decide_eq_true_eq, bne_iff_ne]
        exact ⟨⟨⟨hl, ha⟩, hv⟩, ⟨⟨by omega, hm.1.1.2⟩, by simpa using hm.1.2⟩, hm.2⟩
      · simp only [Memory.place, hk, if_false, Memory.wfFrom, Bool.and_eq_true, decide_eq_true_eq]
        exact ⟨hm.1, ih hm.2 (by omega)⟩

/-- A write keeps the canonical form. -/
theorem Memory.wf_set (m : Memory) {a : Nat} (v : Byte) (ha : a < 2 ^ 32) (hm : m.wf = true) :
    (m.set a v).wf = true := by
  unfold Memory.wf at *
  by_cases h : v = Memory.unlisted
  · simpa [Memory.set, h] using Memory.wfFrom_drop m a hm
  · simpa [Memory.set, h] using Memory.wfFrom_place m (Memory.wfFrom_drop m a hm) ha (Nat.zero_le _) h

/-! ### Bytes, words and longwords at 32-bit addresses -/

@[simp] theorem Memory.byte_setByte_same (m : Memory) (a : Word) (v : Byte) : (m.setByte a v).byte a = v :=
  Memory.get_set_same m a.toNat v

theorem Memory.byte_setByte_ne (m : Memory) {a b : Word} (v : Byte) (h : b ≠ a) :
    (m.setByte a v).byte b = m.byte b :=
  Memory.get_set_ne m v fun e => h (BitVec.eq_of_toNat_eq e).symm

theorem Memory.byte_setByte (m : Memory) (a b : Word) (v : Byte) :
    (m.setByte a v).byte b = if b = a then v else m.byte b := by
  by_cases h : b = a
  · simp [h]
  · simp [h, Memory.byte_setByte_ne m v h]

theorem Memory.wf_setByte (m : Memory) (a : Word) (v : Byte) (hm : m.wf = true) : (m.setByte a v).wf = true :=
  Memory.wf_set m v a.isLt hm

theorem Memory.wf_setHalf (m : Memory) (l : Bool) (a : Word) (v : Half) (hm : m.wf = true) :
    (m.setHalf l a v).wf = true := by
  cases l <;> exact Memory.wf_setByte _ _ _ (Memory.wf_setByte _ _ _ hm)

theorem Memory.wf_setLong (m : Memory) (l : Bool) (a : Word) (v : Word) (hm : m.wf = true) :
    (m.setLong l a v).wf = true := by
  cases l <;>
    exact Memory.wf_setByte _ _ _ (Memory.wf_setByte _ _ _ (Memory.wf_setByte _ _ _ (Memory.wf_setByte _ _ _ hm)))

/-- A word written leaves every byte outside it alone. -/
theorem Memory.byte_setHalf_ne (m : Memory) (l : Bool) {a b : Word} (v : Half) (h0 : b ≠ a) (h1 : b ≠ a + 1) :
    (m.setHalf l a v).byte b = m.byte b := by
  cases l <;> rw [Memory.setHalf, Memory.byte_setByte_ne _ _ h1, Memory.byte_setByte_ne _ _ h0]

/-- A longword written leaves every byte outside it alone. -/
theorem Memory.byte_setLong_ne (m : Memory) (l : Bool) {a b : Word} (v : Word) (h0 : b ≠ a) (h1 : b ≠ a + 1)
    (h2 : b ≠ a + 2) (h3 : b ≠ a + 3) : (m.setLong l a v).byte b = m.byte b := by
  cases l <;> rw [Memory.setLong, Memory.byte_setByte_ne _ _ h3, Memory.byte_setByte_ne _ _ h2,
    Memory.byte_setByte_ne _ _ h1, Memory.byte_setByte_ne _ _ h0]

theorem halves_append (v : Half) : v.extractLsb' 8 8 ++ v.extractLsb' 0 8 = v := by
  rw [BitVec.extractLsb'_append_extractLsb'_eq_extractLsb' (by rfl), BitVec.extractLsb'_eq_self]

/-- A read of a word after a write of it gives the value written. -/
theorem Memory.half_setHalf_same (m : Memory) (l : Bool) (a : Word) (v : Half) : (m.setHalf l a v).half l a = v := by
  have h : a ≠ a + 1 := by simp
  cases l <;> simp only [Memory.setHalf, Memory.half, Memory.byte_setByte_same, Memory.byte_setByte_ne _ _ h,
    halves_append]

theorem quarters_append (v : Word) :
    v.extractLsb' 24 8 ++ v.extractLsb' 16 8 ++ v.extractLsb' 8 8 ++ v.extractLsb' 0 8 = v := by
  rw [BitVec.extractLsb'_append_extractLsb'_eq_extractLsb' (by rfl),
    BitVec.extractLsb'_append_extractLsb'_eq_extractLsb' (by rfl),
    BitVec.extractLsb'_append_extractLsb'_eq_extractLsb' (by rfl), BitVec.extractLsb'_eq_self]

/-- A read of a longword after a write of it gives the value written. -/
theorem Memory.long_setLong_same (m : Memory) (l : Bool) (a : Word) (v : Word) : (m.setLong l a v).long l a = v := by
  have h01 : a ≠ a + 1 := by simp
  have h02 : a ≠ a + 2 := by simp
  have h03 : a ≠ a + 3 := by simp
  have h12 : a + 1 ≠ a + 2 := by simp
  have h13 : a + 1 ≠ a + 3 := by simp
  have h23 : a + 2 ≠ a + 3 := by simp
  cases l <;> simp only [Memory.setLong, Memory.long, Memory.byte_setByte_same, Memory.byte_setByte_ne _ _ h01,
    Memory.byte_setByte_ne _ _ h02, Memory.byte_setByte_ne _ _ h03, Memory.byte_setByte_ne _ _ h12,
    Memory.byte_setByte_ne _ _ h13, Memory.byte_setByte_ne _ _ h23, quarters_append]

end Sys2Proof.Machine
end

