-- ==== Sys2Proof/Laws/State.lean ====
section
/-! SUPPORT. One lemma per field per update of State, each true by rfl, so that no proof unfolds a record update. -/
set_option Elab.async false
namespace Sys2Proof.Machine

/-! ### State.setReg -/

@[simp] theorem State.setReg_regs (s : State) (n : Reg) (v : Word) : (s.setReg n v).regs = s.regs.set n.val v n.isLt := rfl
@[simp] theorem State.setReg_sr (s : State) (n : Reg) (v : Word) : (s.setReg n v).sr = s.sr := rfl
@[simp] theorem State.setReg_gbr (s : State) (n : Reg) (v : Word) : (s.setReg n v).gbr = s.gbr := rfl
@[simp] theorem State.setReg_vbr (s : State) (n : Reg) (v : Word) : (s.setReg n v).vbr = s.vbr := rfl
@[simp] theorem State.setReg_mach (s : State) (n : Reg) (v : Word) : (s.setReg n v).mach = s.mach := rfl
@[simp] theorem State.setReg_macl (s : State) (n : Reg) (v : Word) : (s.setReg n v).macl = s.macl := rfl
@[simp] theorem State.setReg_pr (s : State) (n : Reg) (v : Word) : (s.setReg n v).pr = s.pr := rfl
@[simp] theorem State.setReg_pc (s : State) (n : Reg) (v : Word) : (s.setReg n v).pc = s.pc := rfl
@[simp] theorem State.setReg_delayTarget (s : State) (n : Reg) (v : Word) : (s.setReg n v).delayTarget = s.delayTarget := rfl
@[simp] theorem State.setReg_slotAfterUntaken (s : State) (n : Reg) (v : Word) : (s.setReg n v).slotAfterUntaken = s.slotAfterUntaken := rfl
@[simp] theorem State.setReg_intInhibit (s : State) (n : Reg) (v : Word) : (s.setReg n v).intInhibit = s.intInhibit := rfl
@[simp] theorem State.setReg_power (s : State) (n : Reg) (v : Word) : (s.setReg n v).power = s.power := rfl
@[simp] theorem State.setReg_mem (s : State) (n : Reg) (v : Word) : (s.setReg n v).mem = s.mem := rfl
@[simp] theorem State.setReg_recentStores (s : State) (n : Reg) (v : Word) : (s.setReg n v).recentStores = s.recentStores := rfl
@[simp] theorem State.setReg_pending (s : State) (n : Reg) (v : Word) : (s.setReg n v).pending = s.pending := rfl
@[simp] theorem State.setReg_lastAccepted (s : State) (n : Reg) (v : Word) : (s.setReg n v).lastAccepted = s.lastAccepted := rfl
@[simp] theorem State.setReg_resetRequest (s : State) (n : Reg) (v : Word) : (s.setReg n v).resetRequest = s.resetRequest := rfl
@[simp] theorem State.setReg_acceptedCount (s : State) (n : Reg) (v : Word) : (s.setReg n v).acceptedCount = s.acceptedCount := rfl
@[simp] theorem State.setReg_passedCount (s : State) (n : Reg) (v : Word) : (s.setReg n v).passedCount = s.passedCount := rfl
@[simp] theorem State.setReg_waits (s : State) (n : Reg) (v : Word) : (s.setReg n v).waits = s.waits := rfl
@[simp] theorem State.setReg_cfg (s : State) (n : Reg) (v : Word) : (s.setReg n v).cfg = s.cfg := rfl
@[simp] theorem State.setReg_tBit (s : State) (n : Reg) (v : Word) : (s.setReg n v).tBit = s.tBit := rfl
@[simp] theorem State.setReg_sBit (s : State) (n : Reg) (v : Word) : (s.setReg n v).sBit = s.sBit := rfl
@[simp] theorem State.setReg_qBit (s : State) (n : Reg) (v : Word) : (s.setReg n v).qBit = s.qBit := rfl
@[simp] theorem State.setReg_mBit (s : State) (n : Reg) (v : Word) : (s.setReg n v).mBit = s.mBit := rfl
@[simp] theorem State.setReg_imask (s : State) (n : Reg) (v : Word) : (s.setReg n v).imask = s.imask := rfl
@[simp] theorem State.setReg_nextPc (s : State) (n : Reg) (v : Word) : (s.setReg n v).nextPc = s.nextPc := rfl
@[simp] theorem State.setReg_storesAfterAdvance (s : State) (n : Reg) (v : Word) : (s.setReg n v).storesAfterAdvance = s.storesAfterAdvance := rfl

/-! ### State.setT -/

@[simp] theorem State.setT_regs (s : State) (b : Bool) : (s.setT b).regs = s.regs := rfl
@[simp] theorem State.setT_sr (s : State) (b : Bool) : (s.setT b).sr = putBit s.sr 0 b := rfl
@[simp] theorem State.setT_gbr (s : State) (b : Bool) : (s.setT b).gbr = s.gbr := rfl
@[simp] theorem State.setT_vbr (s : State) (b : Bool) : (s.setT b).vbr = s.vbr := rfl
@[simp] theorem State.setT_mach (s : State) (b : Bool) : (s.setT b).mach = s.mach := rfl
@[simp] theorem State.setT_macl (s : State) (b : Bool) : (s.setT b).macl = s.macl := rfl
@[simp] theorem State.setT_pr (s : State) (b : Bool) : (s.setT b).pr = s.pr := rfl
@[simp] theorem State.setT_pc (s : State) (b : Bool) : (s.setT b).pc = s.pc := rfl
@[simp] theorem State.setT_delayTarget (s : State) (b : Bool) : (s.setT b).delayTarget = s.delayTarget := rfl
@[simp] theorem State.setT_slotAfterUntaken (s : State) (b : Bool) : (s.setT b).slotAfterUntaken = s.slotAfterUntaken := rfl
@[simp] theorem State.setT_intInhibit (s : State) (b : Bool) : (s.setT b).intInhibit = s.intInhibit := rfl
@[simp] theorem State.setT_power (s : State) (b : Bool) : (s.setT b).power = s.power := rfl
@[simp] theorem State.setT_mem (s : State) (b : Bool) : (s.setT b).mem = s.mem := rfl
@[simp] theorem State.setT_recentStores (s : State) (b : Bool) : (s.setT b).recentStores = s.recentStores := rfl
@[simp] theorem State.setT_pending (s : State) (b : Bool) : (s.setT b).pending = s.pending := rfl
@[simp] theorem State.setT_lastAccepted (s : State) (b : Bool) : (s.setT b).lastAccepted = s.lastAccepted := rfl
@[simp] theorem State.setT_resetRequest (s : State) (b : Bool) : (s.setT b).resetRequest = s.resetRequest := rfl
@[simp] theorem State.setT_acceptedCount (s : State) (b : Bool) : (s.setT b).acceptedCount = s.acceptedCount := rfl
@[simp] theorem State.setT_passedCount (s : State) (b : Bool) : (s.setT b).passedCount = s.passedCount := rfl
@[simp] theorem State.setT_waits (s : State) (b : Bool) : (s.setT b).waits = s.waits := rfl
@[simp] theorem State.setT_cfg (s : State) (b : Bool) : (s.setT b).cfg = s.cfg := rfl
@[simp] theorem State.setT_reg (s : State) (b : Bool) (r : Reg) : (s.setT b).reg r = s.reg r := rfl
@[simp] theorem State.setT_nextPc (s : State) (b : Bool) : (s.setT b).nextPc = s.nextPc := rfl
@[simp] theorem State.setT_storesAfterAdvance (s : State) (b : Bool) : (s.setT b).storesAfterAdvance = s.storesAfterAdvance := rfl

/-! ### State.setQ -/

@[simp] theorem State.setQ_regs (s : State) (b : Bool) : (s.setQ b).regs = s.regs := rfl
@[simp] theorem State.setQ_sr (s : State) (b : Bool) : (s.setQ b).sr = putBit s.sr 8 b := rfl
@[simp] theorem State.setQ_gbr (s : State) (b : Bool) : (s.setQ b).gbr = s.gbr := rfl
@[simp] theorem State.setQ_vbr (s : State) (b : Bool) : (s.setQ b).vbr = s.vbr := rfl
@[simp] theorem State.setQ_mach (s : State) (b : Bool) : (s.setQ b).mach = s.mach := rfl
@[simp] theorem State.setQ_macl (s : State) (b : Bool) : (s.setQ b).macl = s.macl := rfl
@[simp] theorem State.setQ_pr (s : State) (b : Bool) : (s.setQ b).pr = s.pr := rfl
@[simp] theorem State.setQ_pc (s : State) (b : Bool) : (s.setQ b).pc = s.pc := rfl
@[simp] theorem State.setQ_delayTarget (s : State) (b : Bool) : (s.setQ b).delayTarget = s.delayTarget := rfl
@[simp] theorem State.setQ_slotAfterUntaken (s : State) (b : Bool) : (s.setQ b).slotAfterUntaken = s.slotAfterUntaken := rfl
@[simp] theorem State.setQ_intInhibit (s : State) (b : Bool) : (s.setQ b).intInhibit = s.intInhibit := rfl
@[simp] theorem State.setQ_power (s : State) (b : Bool) : (s.setQ b).power = s.power := rfl
@[simp] theorem State.setQ_mem (s : State) (b : Bool) : (s.setQ b).mem = s.mem := rfl
@[simp] theorem State.setQ_recentStores (s : State) (b : Bool) : (s.setQ b).recentStores = s.recentStores := rfl
@[simp] theorem State.setQ_pending (s : State) (b : Bool) : (s.setQ b).pending = s.pending := rfl
@[simp] theorem State.setQ_lastAccepted (s : State) (b : Bool) : (s.setQ b).lastAccepted = s.lastAccepted := rfl
@[simp] theorem State.setQ_resetRequest (s : State) (b : Bool) : (s.setQ b).resetRequest = s.resetRequest := rfl
@[simp] theorem State.setQ_acceptedCount (s : State) (b : Bool) : (s.setQ b).acceptedCount = s.acceptedCount := rfl
@[simp] theorem State.setQ_passedCount (s : State) (b : Bool) : (s.setQ b).passedCount = s.passedCount := rfl
@[simp] theorem State.setQ_waits (s : State) (b : Bool) : (s.setQ b).waits = s.waits := rfl
@[simp] theorem State.setQ_cfg (s : State) (b : Bool) : (s.setQ b).cfg = s.cfg := rfl
@[simp] theorem State.setQ_reg (s : State) (b : Bool) (r : Reg) : (s.setQ b).reg r = s.reg r := rfl
@[simp] theorem State.setQ_nextPc (s : State) (b : Bool) : (s.setQ b).nextPc = s.nextPc := rfl
@[simp] theorem State.setQ_storesAfterAdvance (s : State) (b : Bool) : (s.setQ b).storesAfterAdvance = s.storesAfterAdvance := rfl

/-! ### State.setM -/

@[simp] theorem State.setM_regs (s : State) (b : Bool) : (s.setM b).regs = s.regs := rfl
@[simp] theorem State.setM_sr (s : State) (b : Bool) : (s.setM b).sr = putBit s.sr 9 b := rfl
@[simp] theorem State.setM_gbr (s : State) (b : Bool) : (s.setM b).gbr = s.gbr := rfl
@[simp] theorem State.setM_vbr (s : State) (b : Bool) : (s.setM b).vbr = s.vbr := rfl
@[simp] theorem State.setM_mach (s : State) (b : Bool) : (s.setM b).mach = s.mach := rfl
@[simp] theorem State.setM_macl (s : State) (b : Bool) : (s.setM b).macl = s.macl := rfl
@[simp] theorem State.setM_pr (s : State) (b : Bool) : (s.setM b).pr = s.pr := rfl
@[simp] theorem State.setM_pc (s : State) (b : Bool) : (s.setM b).pc = s.pc := rfl
@[simp] theorem State.setM_delayTarget (s : State) (b : Bool) : (s.setM b).delayTarget = s.delayTarget := rfl
@[simp] theorem State.setM_slotAfterUntaken (s : State) (b : Bool) : (s.setM b).slotAfterUntaken = s.slotAfterUntaken := rfl
@[simp] theorem State.setM_intInhibit (s : State) (b : Bool) : (s.setM b).intInhibit = s.intInhibit := rfl
@[simp] theorem State.setM_power (s : State) (b : Bool) : (s.setM b).power = s.power := rfl
@[simp] theorem State.setM_mem (s : State) (b : Bool) : (s.setM b).mem = s.mem := rfl
@[simp] theorem State.setM_recentStores (s : State) (b : Bool) : (s.setM b).recentStores = s.recentStores := rfl
@[simp] theorem State.setM_pending (s : State) (b : Bool) : (s.setM b).pending = s.pending := rfl
@[simp] theorem State.setM_lastAccepted (s : State) (b : Bool) : (s.setM b).lastAccepted = s.lastAccepted := rfl
@[simp] theorem State.setM_resetRequest (s : State) (b : Bool) : (s.setM b).resetRequest = s.resetRequest := rfl
@[simp] theorem State.setM_acceptedCount (s : State) (b : Bool) : (s.setM b).acceptedCount = s.acceptedCount := rfl
@[simp] theorem State.setM_passedCount (s : State) (b : Bool) : (s.setM b).passedCount = s.passedCount := rfl
@[simp] theorem State.setM_waits (s : State) (b : Bool) : (s.setM b).waits = s.waits := rfl
@[simp] theorem State.setM_cfg (s : State) (b : Bool) : (s.setM b).cfg = s.cfg := rfl
@[simp] theorem State.setM_reg (s : State) (b : Bool) (r : Reg) : (s.setM b).reg r = s.reg r := rfl
@[simp] theorem State.setM_nextPc (s : State) (b : Bool) : (s.setM b).nextPc = s.nextPc := rfl
@[simp] theorem State.setM_storesAfterAdvance (s : State) (b : Bool) : (s.setM b).storesAfterAdvance = s.storesAfterAdvance := rfl

/-! ### State.setSr -/

@[simp] theorem State.setSr_regs (s : State) (v : Word) : (s.setSr v).regs = s.regs := rfl
@[simp] theorem State.setSr_sr (s : State) (v : Word) : (s.setSr v).sr = v &&& srMask := rfl
@[simp] theorem State.setSr_gbr (s : State) (v : Word) : (s.setSr v).gbr = s.gbr := rfl
@[simp] theorem State.setSr_vbr (s : State) (v : Word) : (s.setSr v).vbr = s.vbr := rfl
@[simp] theorem State.setSr_mach (s : State) (v : Word) : (s.setSr v).mach = s.mach := rfl
@[simp] theorem State.setSr_macl (s : State) (v : Word) : (s.setSr v).macl = s.macl := rfl
@[simp] theorem State.setSr_pr (s : State) (v : Word) : (s.setSr v).pr = s.pr := rfl
@[simp] theorem State.setSr_pc (s : State) (v : Word) : (s.setSr v).pc = s.pc := rfl
@[simp] theorem State.setSr_delayTarget (s : State) (v : Word) : (s.setSr v).delayTarget = s.delayTarget := rfl
@[simp] theorem State.setSr_slotAfterUntaken (s : State) (v : Word) : (s.setSr v).slotAfterUntaken = s.slotAfterUntaken := rfl
@[simp] theorem State.setSr_intInhibit (s : State) (v : Word) : (s.setSr v).intInhibit = s.intInhibit := rfl
@[simp] theorem State.setSr_power (s : State) (v : Word) : (s.setSr v).power = s.power := rfl
@[simp] theorem State.setSr_mem (s : State) (v : Word) : (s.setSr v).mem = s.mem := rfl
@[simp] theorem State.setSr_recentStores (s : State) (v : Word) : (s.setSr v).recentStores = s.recentStores := rfl
@[simp] theorem State.setSr_pending (s : State) (v : Word) : (s.setSr v).pending = s.pending := rfl
@[simp] theorem State.setSr_lastAccepted (s : State) (v : Word) : (s.setSr v).lastAccepted = s.lastAccepted := rfl
@[simp] theorem State.setSr_resetRequest (s : State) (v : Word) : (s.setSr v).resetRequest = s.resetRequest := rfl
@[simp] theorem State.setSr_acceptedCount (s : State) (v : Word) : (s.setSr v).acceptedCount = s.acceptedCount := rfl
@[simp] theorem State.setSr_passedCount (s : State) (v : Word) : (s.setSr v).passedCount = s.passedCount := rfl
@[simp] theorem State.setSr_waits (s : State) (v : Word) : (s.setSr v).waits = s.waits := rfl
@[simp] theorem State.setSr_cfg (s : State) (v : Word) : (s.setSr v).cfg = s.cfg := rfl
@[simp] theorem State.setSr_reg (s : State) (v : Word) (r : Reg) : (s.setSr v).reg r = s.reg r := rfl
@[simp] theorem State.setSr_nextPc (s : State) (v : Word) : (s.setSr v).nextPc = s.nextPc := rfl
@[simp] theorem State.setSr_storesAfterAdvance (s : State) (v : Word) : (s.setSr v).storesAfterAdvance = s.storesAfterAdvance := rfl

/-! ### State.setGbr -/

@[simp] theorem State.setGbr_regs (s : State) (v : Word) : (s.setGbr v).regs = s.regs := rfl
@[simp] theorem State.setGbr_sr (s : State) (v : Word) : (s.setGbr v).sr = s.sr := rfl
@[simp] theorem State.setGbr_gbr (s : State) (v : Word) : (s.setGbr v).gbr = v := rfl
@[simp] theorem State.setGbr_vbr (s : State) (v : Word) : (s.setGbr v).vbr = s.vbr := rfl
@[simp] theorem State.setGbr_mach (s : State) (v : Word) : (s.setGbr v).mach = s.mach := rfl
@[simp] theorem State.setGbr_macl (s : State) (v : Word) : (s.setGbr v).macl = s.macl := rfl
@[simp] theorem State.setGbr_pr (s : State) (v : Word) : (s.setGbr v).pr = s.pr := rfl
@[simp] theorem State.setGbr_pc (s : State) (v : Word) : (s.setGbr v).pc = s.pc := rfl
@[simp] theorem State.setGbr_delayTarget (s : State) (v : Word) : (s.setGbr v).delayTarget = s.delayTarget := rfl
@[simp] theorem State.setGbr_slotAfterUntaken (s : State) (v : Word) : (s.setGbr v).slotAfterUntaken = s.slotAfterUntaken := rfl
@[simp] theorem State.setGbr_intInhibit (s : State) (v : Word) : (s.setGbr v).intInhibit = s.intInhibit := rfl
@[simp] theorem State.setGbr_power (s : State) (v : Word) : (s.setGbr v).power = s.power := rfl
@[simp] theorem State.setGbr_mem (s : State) (v : Word) : (s.setGbr v).mem = s.mem := rfl
@[simp] theorem State.setGbr_recentStores (s : State) (v : Word) : (s.setGbr v).recentStores = s.recentStores := rfl
@[simp] theorem State.setGbr_pending (s : State) (v : Word) : (s.setGbr v).pending = s.pending := rfl
@[simp] theorem State.setGbr_lastAccepted (s : State) (v : Word) : (s.setGbr v).lastAccepted = s.lastAccepted := rfl
@[simp] theorem State.setGbr_resetRequest (s : State) (v : Word) : (s.setGbr v).resetRequest = s.resetRequest := rfl
@[simp] theorem State.setGbr_acceptedCount (s : State) (v : Word) : (s.setGbr v).acceptedCount = s.acceptedCount := rfl
@[simp] theorem State.setGbr_passedCount (s : State) (v : Word) : (s.setGbr v).passedCount = s.passedCount := rfl
@[simp] theorem State.setGbr_waits (s : State) (v : Word) : (s.setGbr v).waits = s.waits := rfl
@[simp] theorem State.setGbr_cfg (s : State) (v : Word) : (s.setGbr v).cfg = s.cfg := rfl
@[simp] theorem State.setGbr_reg (s : State) (v : Word) (r : Reg) : (s.setGbr v).reg r = s.reg r := rfl
@[simp] theorem State.setGbr_tBit (s : State) (v : Word) : (s.setGbr v).tBit = s.tBit := rfl
@[simp] theorem State.setGbr_sBit (s : State) (v : Word) : (s.setGbr v).sBit = s.sBit := rfl
@[simp] theorem State.setGbr_qBit (s : State) (v : Word) : (s.setGbr v).qBit = s.qBit := rfl
@[simp] theorem State.setGbr_mBit (s : State) (v : Word) : (s.setGbr v).mBit = s.mBit := rfl
@[simp] theorem State.setGbr_imask (s : State) (v : Word) : (s.setGbr v).imask = s.imask := rfl
@[simp] theorem State.setGbr_nextPc (s : State) (v : Word) : (s.setGbr v).nextPc = s.nextPc := rfl
@[simp] theorem State.setGbr_storesAfterAdvance (s : State) (v : Word) : (s.setGbr v).storesAfterAdvance = s.storesAfterAdvance := rfl

/-! ### State.setVbr -/

@[simp] theorem State.setVbr_regs (s : State) (v : Word) : (s.setVbr v).regs = s.regs := rfl
@[simp] theorem State.setVbr_sr (s : State) (v : Word) : (s.setVbr v).sr = s.sr := rfl
@[simp] theorem State.setVbr_gbr (s : State) (v : Word) : (s.setVbr v).gbr = s.gbr := rfl
@[simp] theorem State.setVbr_vbr (s : State) (v : Word) : (s.setVbr v).vbr = v := rfl
@[simp] theorem State.setVbr_mach (s : State) (v : Word) : (s.setVbr v).mach = s.mach := rfl
@[simp] theorem State.setVbr_macl (s : State) (v : Word) : (s.setVbr v).macl = s.macl := rfl
@[simp] theorem State.setVbr_pr (s : State) (v : Word) : (s.setVbr v).pr = s.pr := rfl
@[simp] theorem State.setVbr_pc (s : State) (v : Word) : (s.setVbr v).pc = s.pc := rfl
@[simp] theorem State.setVbr_delayTarget (s : State) (v : Word) : (s.setVbr v).delayTarget = s.delayTarget := rfl
@[simp] theorem State.setVbr_slotAfterUntaken (s : State) (v : Word) : (s.setVbr v).slotAfterUntaken = s.slotAfterUntaken := rfl
@[simp] theorem State.setVbr_intInhibit (s : State) (v : Word) : (s.setVbr v).intInhibit = s.intInhibit := rfl
@[simp] theorem State.setVbr_power (s : State) (v : Word) : (s.setVbr v).power = s.power := rfl
@[simp] theorem State.setVbr_mem (s : State) (v : Word) : (s.setVbr v).mem = s.mem := rfl
@[simp] theorem State.setVbr_recentStores (s : State) (v : Word) : (s.setVbr v).recentStores = s.recentStores := rfl
@[simp] theorem State.setVbr_pending (s : State) (v : Word) : (s.setVbr v).pending = s.pending := rfl
@[simp] theorem State.setVbr_lastAccepted (s : State) (v : Word) : (s.setVbr v).lastAccepted = s.lastAccepted := rfl
@[simp] theorem State.setVbr_resetRequest (s : State) (v : Word) : (s.setVbr v).resetRequest = s.resetRequest := rfl
@[simp] theorem State.setVbr_acceptedCount (s : State) (v : Word) : (s.setVbr v).acceptedCount = s.acceptedCount := rfl
@[simp] theorem State.setVbr_passedCount (s : State) (v : Word) : (s.setVbr v).passedCount = s.passedCount := rfl
@[simp] theorem State.setVbr_waits (s : State) (v : Word) : (s.setVbr v).waits = s.waits := rfl
@[simp] theorem State.setVbr_cfg (s : State) (v : Word) : (s.setVbr v).cfg = s.cfg := rfl
@[simp] theorem State.setVbr_reg (s : State) (v : Word) (r : Reg) : (s.setVbr v).reg r = s.reg r := rfl
@[simp] theorem State.setVbr_tBit (s : State) (v : Word) : (s.setVbr v).tBit = s.tBit := rfl
@[simp] theorem State.setVbr_sBit (s : State) (v : Word) : (s.setVbr v).sBit = s.sBit := rfl
@[simp] theorem State.setVbr_qBit (s : State) (v : Word) : (s.setVbr v).qBit = s.qBit := rfl
@[simp] theorem State.setVbr_mBit (s : State) (v : Word) : (s.setVbr v).mBit = s.mBit := rfl
@[simp] theorem State.setVbr_imask (s : State) (v : Word) : (s.setVbr v).imask = s.imask := rfl
@[simp] theorem State.setVbr_nextPc (s : State) (v : Word) : (s.setVbr v).nextPc = s.nextPc := rfl
@[simp] theorem State.setVbr_storesAfterAdvance (s : State) (v : Word) : (s.setVbr v).storesAfterAdvance = s.storesAfterAdvance := rfl

/-! ### State.setMach -/

@[simp] theorem State.setMach_regs (s : State) (v : Word) : (s.setMach v).regs = s.regs := rfl
@[simp] theorem State.setMach_sr (s : State) (v : Word) : (s.setMach v).sr = s.sr := rfl
@[simp] theorem State.setMach_gbr (s : State) (v : Word) : (s.setMach v).gbr = s.gbr := rfl
@[simp] theorem State.setMach_vbr (s : State) (v : Word) : (s.setMach v).vbr = s.vbr := rfl
@[simp] theorem State.setMach_mach (s : State) (v : Word) : (s.setMach v).mach = machStore s.cfg.cpu v := rfl
@[simp] theorem State.setMach_macl (s : State) (v : Word) : (s.setMach v).macl = s.macl := rfl
@[simp] theorem State.setMach_pr (s : State) (v : Word) : (s.setMach v).pr = s.pr := rfl
@[simp] theorem State.setMach_pc (s : State) (v : Word) : (s.setMach v).pc = s.pc := rfl
@[simp] theorem State.setMach_delayTarget (s : State) (v : Word) : (s.setMach v).delayTarget = s.delayTarget := rfl
@[simp] theorem State.setMach_slotAfterUntaken (s : State) (v : Word) : (s.setMach v).slotAfterUntaken = s.slotAfterUntaken := rfl
@[simp] theorem State.setMach_intInhibit (s : State) (v : Word) : (s.setMach v).intInhibit = s.intInhibit := rfl
@[simp] theorem State.setMach_power (s : State) (v : Word) : (s.setMach v).power = s.power := rfl
@[simp] theorem State.setMach_mem (s : State) (v : Word) : (s.setMach v).mem = s.mem := rfl
@[simp] theorem State.setMach_recentStores (s : State) (v : Word) : (s.setMach v).recentStores = s.recentStores := rfl
@[simp] theorem State.setMach_pending (s : State) (v : Word) : (s.setMach v).pending = s.pending := rfl
@[simp] theorem State.setMach_lastAccepted (s : State) (v : Word) : (s.setMach v).lastAccepted = s.lastAccepted := rfl
@[simp] theorem State.setMach_resetRequest (s : State) (v : Word) : (s.setMach v).resetRequest = s.resetRequest := rfl
@[simp] theorem State.setMach_acceptedCount (s : State) (v : Word) : (s.setMach v).acceptedCount = s.acceptedCount := rfl
@[simp] theorem State.setMach_passedCount (s : State) (v : Word) : (s.setMach v).passedCount = s.passedCount := rfl
@[simp] theorem State.setMach_waits (s : State) (v : Word) : (s.setMach v).waits = s.waits := rfl
@[simp] theorem State.setMach_cfg (s : State) (v : Word) : (s.setMach v).cfg = s.cfg := rfl
@[simp] theorem State.setMach_reg (s : State) (v : Word) (r : Reg) : (s.setMach v).reg r = s.reg r := rfl
@[simp] theorem State.setMach_tBit (s : State) (v : Word) : (s.setMach v).tBit = s.tBit := rfl
@[simp] theorem State.setMach_sBit (s : State) (v : Word) : (s.setMach v).sBit = s.sBit := rfl
@[simp] theorem State.setMach_qBit (s : State) (v : Word) : (s.setMach v).qBit = s.qBit := rfl
@[simp] theorem State.setMach_mBit (s : State) (v : Word) : (s.setMach v).mBit = s.mBit := rfl
@[simp] theorem State.setMach_imask (s : State) (v : Word) : (s.setMach v).imask = s.imask := rfl
@[simp] theorem State.setMach_nextPc (s : State) (v : Word) : (s.setMach v).nextPc = s.nextPc := rfl
@[simp] theorem State.setMach_storesAfterAdvance (s : State) (v : Word) : (s.setMach v).storesAfterAdvance = s.storesAfterAdvance := rfl

/-! ### State.setMacl -/

@[simp] theorem State.setMacl_regs (s : State) (v : Word) : (s.setMacl v).regs = s.regs := rfl
@[simp] theorem State.setMacl_sr (s : State) (v : Word) : (s.setMacl v).sr = s.sr := rfl
@[simp] theorem State.setMacl_gbr (s : State) (v : Word) : (s.setMacl v).gbr = s.gbr := rfl
@[simp] theorem State.setMacl_vbr (s : State) (v : Word) : (s.setMacl v).vbr = s.vbr := rfl
@[simp] theorem State.setMacl_mach (s : State) (v : Word) : (s.setMacl v).mach = s.mach := rfl
@[simp] theorem State.setMacl_macl (s : State) (v : Word) : (s.setMacl v).macl = v := rfl
@[simp] theorem State.setMacl_pr (s : State) (v : Word) : (s.setMacl v).pr = s.pr := rfl
@[simp] theorem State.setMacl_pc (s : State) (v : Word) : (s.setMacl v).pc = s.pc := rfl
@[simp] theorem State.setMacl_delayTarget (s : State) (v : Word) : (s.setMacl v).delayTarget = s.delayTarget := rfl
@[simp] theorem State.setMacl_slotAfterUntaken (s : State) (v : Word) : (s.setMacl v).slotAfterUntaken = s.slotAfterUntaken := rfl
@[simp] theorem State.setMacl_intInhibit (s : State) (v : Word) : (s.setMacl v).intInhibit = s.intInhibit := rfl
@[simp] theorem State.setMacl_power (s : State) (v : Word) : (s.setMacl v).power = s.power := rfl
@[simp] theorem State.setMacl_mem (s : State) (v : Word) : (s.setMacl v).mem = s.mem := rfl
@[simp] theorem State.setMacl_recentStores (s : State) (v : Word) : (s.setMacl v).recentStores = s.recentStores := rfl
@[simp] theorem State.setMacl_pending (s : State) (v : Word) : (s.setMacl v).pending = s.pending := rfl
@[simp] theorem State.setMacl_lastAccepted (s : State) (v : Word) : (s.setMacl v).lastAccepted = s.lastAccepted := rfl
@[simp] theorem State.setMacl_resetRequest (s : State) (v : Word) : (s.setMacl v).resetRequest = s.resetRequest := rfl
@[simp] theorem State.setMacl_acceptedCount (s : State) (v : Word) : (s.setMacl v).acceptedCount = s.acceptedCount := rfl
@[simp] theorem State.setMacl_passedCount (s : State) (v : Word) : (s.setMacl v).passedCount = s.passedCount := rfl
@[simp] theorem State.setMacl_waits (s : State) (v : Word) : (s.setMacl v).waits = s.waits := rfl
@[simp] theorem State.setMacl_cfg (s : State) (v : Word) : (s.setMacl v).cfg = s.cfg := rfl
@[simp] theorem State.setMacl_reg (s : State) (v : Word) (r : Reg) : (s.setMacl v).reg r = s.reg r := rfl
@[simp] theorem State.setMacl_tBit (s : State) (v : Word) : (s.setMacl v).tBit = s.tBit := rfl
@[simp] theorem State.setMacl_sBit (s : State) (v : Word) : (s.setMacl v).sBit = s.sBit := rfl
@[simp] theorem State.setMacl_qBit (s : State) (v : Word) : (s.setMacl v).qBit = s.qBit := rfl
@[simp] theorem State.setMacl_mBit (s : State) (v : Word) : (s.setMacl v).mBit = s.mBit := rfl
@[simp] theorem State.setMacl_imask (s : State) (v : Word) : (s.setMacl v).imask = s.imask := rfl
@[simp] theorem State.setMacl_nextPc (s : State) (v : Word) : (s.setMacl v).nextPc = s.nextPc := rfl
@[simp] theorem State.setMacl_storesAfterAdvance (s : State) (v : Word) : (s.setMacl v).storesAfterAdvance = s.storesAfterAdvance := rfl

/-! ### State.setMac -/

@[simp] theorem State.setMac_regs (s : State) (v : BitVec 64) : (s.setMac v).regs = s.regs := rfl
@[simp] theorem State.setMac_sr (s : State) (v : BitVec 64) : (s.setMac v).sr = s.sr := rfl
@[simp] theorem State.setMac_gbr (s : State) (v : BitVec 64) : (s.setMac v).gbr = s.gbr := rfl
@[simp] theorem State.setMac_vbr (s : State) (v : BitVec 64) : (s.setMac v).vbr = s.vbr := rfl
@[simp] theorem State.setMac_mach (s : State) (v : BitVec 64) : (s.setMac v).mach = v.extractLsb' 32 32 := rfl
@[simp] theorem State.setMac_macl (s : State) (v : BitVec 64) : (s.setMac v).macl = v.extractLsb' 0 32 := rfl
@[simp] theorem State.setMac_pr (s : State) (v : BitVec 64) : (s.setMac v).pr = s.pr := rfl
@[simp] theorem State.setMac_pc (s : State) (v : BitVec 64) : (s.setMac v).pc = s.pc := rfl
@[simp] theorem State.setMac_delayTarget (s : State) (v : BitVec 64) : (s.setMac v).delayTarget = s.delayTarget := rfl
@[simp] theorem State.setMac_slotAfterUntaken (s : State) (v : BitVec 64) : (s.setMac v).slotAfterUntaken = s.slotAfterUntaken := rfl
@[simp] theorem State.setMac_intInhibit (s : State) (v : BitVec 64) : (s.setMac v).intInhibit = s.intInhibit := rfl
@[simp] theorem State.setMac_power (s : State) (v : BitVec 64) : (s.setMac v).power = s.power := rfl
@[simp] theorem State.setMac_mem (s : State) (v : BitVec 64) : (s.setMac v).mem = s.mem := rfl
@[simp] theorem State.setMac_recentStores (s : State) (v : BitVec 64) : (s.setMac v).recentStores = s.recentStores := rfl
@[simp] theorem State.setMac_pending (s : State) (v : BitVec 64) : (s.setMac v).pending = s.pending := rfl
@[simp] theorem State.setMac_lastAccepted (s : State) (v : BitVec 64) : (s.setMac v).lastAccepted = s.lastAccepted := rfl
@[simp] theorem State.setMac_resetRequest (s : State) (v : BitVec 64) : (s.setMac v).resetRequest = s.resetRequest := rfl
@[simp] theorem State.setMac_acceptedCount (s : State) (v : BitVec 64) : (s.setMac v).acceptedCount = s.acceptedCount := rfl
@[simp] theorem State.setMac_passedCount (s : State) (v : BitVec 64) : (s.setMac v).passedCount = s.passedCount := rfl
@[simp] theorem State.setMac_waits (s : State) (v : BitVec 64) : (s.setMac v).waits = s.waits := rfl
@[simp] theorem State.setMac_cfg (s : State) (v : BitVec 64) : (s.setMac v).cfg = s.cfg := rfl
@[simp] theorem State.setMac_reg (s : State) (v : BitVec 64) (r : Reg) : (s.setMac v).reg r = s.reg r := rfl
@[simp] theorem State.setMac_tBit (s : State) (v : BitVec 64) : (s.setMac v).tBit = s.tBit := rfl
@[simp] theorem State.setMac_sBit (s : State) (v : BitVec 64) : (s.setMac v).sBit = s.sBit := rfl
@[simp] theorem State.setMac_qBit (s : State) (v : BitVec 64) : (s.setMac v).qBit = s.qBit := rfl
@[simp] theorem State.setMac_mBit (s : State) (v : BitVec 64) : (s.setMac v).mBit = s.mBit := rfl
@[simp] theorem State.setMac_imask (s : State) (v : BitVec 64) : (s.setMac v).imask = s.imask := rfl
@[simp] theorem State.setMac_nextPc (s : State) (v : BitVec 64) : (s.setMac v).nextPc = s.nextPc := rfl
@[simp] theorem State.setMac_storesAfterAdvance (s : State) (v : BitVec 64) : (s.setMac v).storesAfterAdvance = s.storesAfterAdvance := rfl

/-! ### State.setPr -/

@[simp] theorem State.setPr_regs (s : State) (v : Word) : (s.setPr v).regs = s.regs := rfl
@[simp] theorem State.setPr_sr (s : State) (v : Word) : (s.setPr v).sr = s.sr := rfl
@[simp] theorem State.setPr_gbr (s : State) (v : Word) : (s.setPr v).gbr = s.gbr := rfl
@[simp] theorem State.setPr_vbr (s : State) (v : Word) : (s.setPr v).vbr = s.vbr := rfl
@[simp] theorem State.setPr_mach (s : State) (v : Word) : (s.setPr v).mach = s.mach := rfl
@[simp] theorem State.setPr_macl (s : State) (v : Word) : (s.setPr v).macl = s.macl := rfl
@[simp] theorem State.setPr_pr (s : State) (v : Word) : (s.setPr v).pr = v := rfl
@[simp] theorem State.setPr_pc (s : State) (v : Word) : (s.setPr v).pc = s.pc := rfl
@[simp] theorem State.setPr_delayTarget (s : State) (v : Word) : (s.setPr v).delayTarget = s.delayTarget := rfl
@[simp] theorem State.setPr_slotAfterUntaken (s : State) (v : Word) : (s.setPr v).slotAfterUntaken = s.slotAfterUntaken := rfl
@[simp] theorem State.setPr_intInhibit (s : State) (v : Word) : (s.setPr v).intInhibit = s.intInhibit := rfl
@[simp] theorem State.setPr_power (s : State) (v : Word) : (s.setPr v).power = s.power := rfl
@[simp] theorem State.setPr_mem (s : State) (v : Word) : (s.setPr v).mem = s.mem := rfl
@[simp] theorem State.setPr_recentStores (s : State) (v : Word) : (s.setPr v).recentStores = s.recentStores := rfl
@[simp] theorem State.setPr_pending (s : State) (v : Word) : (s.setPr v).pending = s.pending := rfl
@[simp] theorem State.setPr_lastAccepted (s : State) (v : Word) : (s.setPr v).lastAccepted = s.lastAccepted := rfl
@[simp] theorem State.setPr_resetRequest (s : State) (v : Word) : (s.setPr v).resetRequest = s.resetRequest := rfl
@[simp] theorem State.setPr_acceptedCount (s : State) (v : Word) : (s.setPr v).acceptedCount = s.acceptedCount := rfl
@[simp] theorem State.setPr_passedCount (s : State) (v : Word) : (s.setPr v).passedCount = s.passedCount := rfl
@[simp] theorem State.setPr_waits (s : State) (v : Word) : (s.setPr v).waits = s.waits := rfl
@[simp] theorem State.setPr_cfg (s : State) (v : Word) : (s.setPr v).cfg = s.cfg := rfl
@[simp] theorem State.setPr_reg (s : State) (v : Word) (r : Reg) : (s.setPr v).reg r = s.reg r := rfl
@[simp] theorem State.setPr_tBit (s : State) (v : Word) : (s.setPr v).tBit = s.tBit := rfl
@[simp] theorem State.setPr_sBit (s : State) (v : Word) : (s.setPr v).sBit = s.sBit := rfl
@[simp] theorem State.setPr_qBit (s : State) (v : Word) : (s.setPr v).qBit = s.qBit := rfl
@[simp] theorem State.setPr_mBit (s : State) (v : Word) : (s.setPr v).mBit = s.mBit := rfl
@[simp] theorem State.setPr_imask (s : State) (v : Word) : (s.setPr v).imask = s.imask := rfl
@[simp] theorem State.setPr_nextPc (s : State) (v : Word) : (s.setPr v).nextPc = s.nextPc := rfl
@[simp] theorem State.setPr_storesAfterAdvance (s : State) (v : Word) : (s.setPr v).storesAfterAdvance = s.storesAfterAdvance := rfl

/-! ### State.stored -/

@[simp] theorem State.stored_regs (s : State) (a : Word) (k : Nat) (m : Memory) : (s.stored a k m).regs = s.regs := rfl
@[simp] theorem State.stored_sr (s : State) (a : Word) (k : Nat) (m : Memory) : (s.stored a k m).sr = s.sr := rfl
@[simp] theorem State.stored_gbr (s : State) (a : Word) (k : Nat) (m : Memory) : (s.stored a k m).gbr = s.gbr := rfl
@[simp] theorem State.stored_vbr (s : State) (a : Word) (k : Nat) (m : Memory) : (s.stored a k m).vbr = s.vbr := rfl
@[simp] theorem State.stored_mach (s : State) (a : Word) (k : Nat) (m : Memory) : (s.stored a k m).mach = s.mach := rfl
@[simp] theorem State.stored_macl (s : State) (a : Word) (k : Nat) (m : Memory) : (s.stored a k m).macl = s.macl := rfl
@[simp] theorem State.stored_pr (s : State) (a : Word) (k : Nat) (m : Memory) : (s.stored a k m).pr = s.pr := rfl
@[simp] theorem State.stored_pc (s : State) (a : Word) (k : Nat) (m : Memory) : (s.stored a k m).pc = s.pc := rfl
@[simp] theorem State.stored_delayTarget (s : State) (a : Word) (k : Nat) (m : Memory) : (s.stored a k m).delayTarget = s.delayTarget := rfl
@[simp] theorem State.stored_slotAfterUntaken (s : State) (a : Word) (k : Nat) (m : Memory) : (s.stored a k m).slotAfterUntaken = s.slotAfterUntaken := rfl
@[simp] theorem State.stored_intInhibit (s : State) (a : Word) (k : Nat) (m : Memory) : (s.stored a k m).intInhibit = s.intInhibit := rfl
@[simp] theorem State.stored_power (s : State) (a : Word) (k : Nat) (m : Memory) : (s.stored a k m).power = s.power := rfl
@[simp] theorem State.stored_mem (s : State) (a : Word) (k : Nat) (m : Memory) : (s.stored a k m).mem = m := rfl
@[simp] theorem State.stored_recentStores (s : State) (a : Word) (k : Nat) (m : Memory) : (s.stored a k m).recentStores = ⟨a, k, staleWindow⟩ :: s.recentStores := rfl
@[simp] theorem State.stored_pending (s : State) (a : Word) (k : Nat) (m : Memory) : (s.stored a k m).pending = s.pending := rfl
@[simp] theorem State.stored_lastAccepted (s : State) (a : Word) (k : Nat) (m : Memory) : (s.stored a k m).lastAccepted = s.lastAccepted := rfl
@[simp] theorem State.stored_resetRequest (s : State) (a : Word) (k : Nat) (m : Memory) : (s.stored a k m).resetRequest = s.resetRequest := rfl
@[simp] theorem State.stored_acceptedCount (s : State) (a : Word) (k : Nat) (m : Memory) : (s.stored a k m).acceptedCount = s.acceptedCount := rfl
@[simp] theorem State.stored_passedCount (s : State) (a : Word) (k : Nat) (m : Memory) : (s.stored a k m).passedCount = s.passedCount := rfl
@[simp] theorem State.stored_waits (s : State) (a : Word) (k : Nat) (m : Memory) : (s.stored a k m).waits = s.waits := rfl
@[simp] theorem State.stored_cfg (s : State) (a : Word) (k : Nat) (m : Memory) : (s.stored a k m).cfg = s.cfg := rfl
@[simp] theorem State.stored_reg (s : State) (a : Word) (k : Nat) (m : Memory) (r : Reg) : (s.stored a k m).reg r = s.reg r := rfl
@[simp] theorem State.stored_tBit (s : State) (a : Word) (k : Nat) (m : Memory) : (s.stored a k m).tBit = s.tBit := rfl
@[simp] theorem State.stored_sBit (s : State) (a : Word) (k : Nat) (m : Memory) : (s.stored a k m).sBit = s.sBit := rfl
@[simp] theorem State.stored_qBit (s : State) (a : Word) (k : Nat) (m : Memory) : (s.stored a k m).qBit = s.qBit := rfl
@[simp] theorem State.stored_mBit (s : State) (a : Word) (k : Nat) (m : Memory) : (s.stored a k m).mBit = s.mBit := rfl
@[simp] theorem State.stored_imask (s : State) (a : Word) (k : Nat) (m : Memory) : (s.stored a k m).imask = s.imask := rfl
@[simp] theorem State.stored_nextPc (s : State) (a : Word) (k : Nat) (m : Memory) : (s.stored a k m).nextPc = s.nextPc := rfl

/-! ### State.finish -/

@[simp] theorem State.finish_regs (s : State) : (s.finish).regs = s.regs := rfl
@[simp] theorem State.finish_sr (s : State) : (s.finish).sr = s.sr := rfl
@[simp] theorem State.finish_gbr (s : State) : (s.finish).gbr = s.gbr := rfl
@[simp] theorem State.finish_vbr (s : State) : (s.finish).vbr = s.vbr := rfl
@[simp] theorem State.finish_mach (s : State) : (s.finish).mach = s.mach := rfl
@[simp] theorem State.finish_macl (s : State) : (s.finish).macl = s.macl := rfl
@[simp] theorem State.finish_pr (s : State) : (s.finish).pr = s.pr := rfl
@[simp] theorem State.finish_pc (s : State) : (s.finish).pc = s.nextPc := rfl
@[simp] theorem State.finish_delayTarget (s : State) : (s.finish).delayTarget = none := rfl
@[simp] theorem State.finish_slotAfterUntaken (s : State) : (s.finish).slotAfterUntaken = false := rfl
@[simp] theorem State.finish_intInhibit (s : State) : (s.finish).intInhibit = false := rfl
@[simp] theorem State.finish_power (s : State) : (s.finish).power = s.power := rfl
@[simp] theorem State.finish_mem (s : State) : (s.finish).mem = s.mem := rfl
@[simp] theorem State.finish_recentStores (s : State) : (s.finish).recentStores = s.storesAfterAdvance := rfl
@[simp] theorem State.finish_pending (s : State) : (s.finish).pending = s.pending := rfl
@[simp] theorem State.finish_lastAccepted (s : State) : (s.finish).lastAccepted = s.lastAccepted := rfl
@[simp] theorem State.finish_resetRequest (s : State) : (s.finish).resetRequest = s.resetRequest := rfl
@[simp] theorem State.finish_acceptedCount (s : State) : (s.finish).acceptedCount = s.acceptedCount := rfl
@[simp] theorem State.finish_passedCount (s : State) : (s.finish).passedCount = s.passedCount := rfl
@[simp] theorem State.finish_waits (s : State) : (s.finish).waits = s.waits := rfl
@[simp] theorem State.finish_cfg (s : State) : (s.finish).cfg = s.cfg := rfl
@[simp] theorem State.finish_reg (s : State) (r : Reg) : (s.finish).reg r = s.reg r := rfl
@[simp] theorem State.finish_tBit (s : State) : (s.finish).tBit = s.tBit := rfl
@[simp] theorem State.finish_sBit (s : State) : (s.finish).sBit = s.sBit := rfl
@[simp] theorem State.finish_qBit (s : State) : (s.finish).qBit = s.qBit := rfl
@[simp] theorem State.finish_mBit (s : State) : (s.finish).mBit = s.mBit := rfl
@[simp] theorem State.finish_imask (s : State) : (s.finish).imask = s.imask := rfl

/-! ### State.finishInhibit -/

@[simp] theorem State.finishInhibit_regs (s : State) : (s.finishInhibit).regs = s.regs := rfl
@[simp] theorem State.finishInhibit_sr (s : State) : (s.finishInhibit).sr = s.sr := rfl
@[simp] theorem State.finishInhibit_gbr (s : State) : (s.finishInhibit).gbr = s.gbr := rfl
@[simp] theorem State.finishInhibit_vbr (s : State) : (s.finishInhibit).vbr = s.vbr := rfl
@[simp] theorem State.finishInhibit_mach (s : State) : (s.finishInhibit).mach = s.mach := rfl
@[simp] theorem State.finishInhibit_macl (s : State) : (s.finishInhibit).macl = s.macl := rfl
@[simp] theorem State.finishInhibit_pr (s : State) : (s.finishInhibit).pr = s.pr := rfl
@[simp] theorem State.finishInhibit_pc (s : State) : (s.finishInhibit).pc = s.nextPc := rfl
@[simp] theorem State.finishInhibit_delayTarget (s : State) : (s.finishInhibit).delayTarget = none := rfl
@[simp] theorem State.finishInhibit_slotAfterUntaken (s : State) : (s.finishInhibit).slotAfterUntaken = false := rfl
@[simp] theorem State.finishInhibit_intInhibit (s : State) : (s.finishInhibit).intInhibit = true := rfl
@[simp] theorem State.finishInhibit_power (s : State) : (s.finishInhibit).power = s.power := rfl
@[simp] theorem State.finishInhibit_mem (s : State) : (s.finishInhibit).mem = s.mem := rfl
@[simp] theorem State.finishInhibit_recentStores (s : State) : (s.finishInhibit).recentStores = s.storesAfterAdvance := rfl
@[simp] theorem State.finishInhibit_pending (s : State) : (s.finishInhibit).pending = s.pending := rfl
@[simp] theorem State.finishInhibit_lastAccepted (s : State) : (s.finishInhibit).lastAccepted = s.lastAccepted := rfl
@[simp] theorem State.finishInhibit_resetRequest (s : State) : (s.finishInhibit).resetRequest = s.resetRequest := rfl
@[simp] theorem State.finishInhibit_acceptedCount (s : State) : (s.finishInhibit).acceptedCount = s.acceptedCount := rfl
@[simp] theorem State.finishInhibit_passedCount (s : State) : (s.finishInhibit).passedCount = s.passedCount := rfl
@[simp] theorem State.finishInhibit_waits (s : State) : (s.finishInhibit).waits = s.waits := rfl
@[simp] theorem State.finishInhibit_cfg (s : State) : (s.finishInhibit).cfg = s.cfg := rfl
@[simp] theorem State.finishInhibit_reg (s : State) (r : Reg) : (s.finishInhibit).reg r = s.reg r := rfl
@[simp] theorem State.finishInhibit_tBit (s : State) : (s.finishInhibit).tBit = s.tBit := rfl
@[simp] theorem State.finishInhibit_sBit (s : State) : (s.finishInhibit).sBit = s.sBit := rfl
@[simp] theorem State.finishInhibit_qBit (s : State) : (s.finishInhibit).qBit = s.qBit := rfl
@[simp] theorem State.finishInhibit_mBit (s : State) : (s.finishInhibit).mBit = s.mBit := rfl
@[simp] theorem State.finishInhibit_imask (s : State) : (s.finishInhibit).imask = s.imask := rfl

/-! ### State.branchNow -/

@[simp] theorem State.branchNow_regs (s : State) (t : Word) : (s.branchNow t).regs = s.regs := rfl
@[simp] theorem State.branchNow_sr (s : State) (t : Word) : (s.branchNow t).sr = s.sr := rfl
@[simp] theorem State.branchNow_gbr (s : State) (t : Word) : (s.branchNow t).gbr = s.gbr := rfl
@[simp] theorem State.branchNow_vbr (s : State) (t : Word) : (s.branchNow t).vbr = s.vbr := rfl
@[simp] theorem State.branchNow_mach (s : State) (t : Word) : (s.branchNow t).mach = s.mach := rfl
@[simp] theorem State.branchNow_macl (s : State) (t : Word) : (s.branchNow t).macl = s.macl := rfl
@[simp] theorem State.branchNow_pr (s : State) (t : Word) : (s.branchNow t).pr = s.pr := rfl
@[simp] theorem State.branchNow_pc (s : State) (t : Word) : (s.branchNow t).pc = t := rfl
@[simp] theorem State.branchNow_delayTarget (s : State) (t : Word) : (s.branchNow t).delayTarget = none := rfl
@[simp] theorem State.branchNow_slotAfterUntaken (s : State) (t : Word) : (s.branchNow t).slotAfterUntaken = false := rfl
@[simp] theorem State.branchNow_intInhibit (s : State) (t : Word) : (s.branchNow t).intInhibit = false := rfl
@[simp] theorem State.branchNow_power (s : State) (t : Word) : (s.branchNow t).power = s.power := rfl
@[simp] theorem State.branchNow_mem (s : State) (t : Word) : (s.branchNow t).mem = s.mem := rfl
@[simp] theorem State.branchNow_recentStores (s : State) (t : Word) : (s.branchNow t).recentStores = [] := rfl
@[simp] theorem State.branchNow_pending (s : State) (t : Word) : (s.branchNow t).pending = s.pending := rfl
@[simp] theorem State.branchNow_lastAccepted (s : State) (t : Word) : (s.branchNow t).lastAccepted = s.lastAccepted := rfl
@[simp] theorem State.branchNow_resetRequest (s : State) (t : Word) : (s.branchNow t).resetRequest = s.resetRequest := rfl
@[simp] theorem State.branchNow_acceptedCount (s : State) (t : Word) : (s.branchNow t).acceptedCount = s.acceptedCount := rfl
@[simp] theorem State.branchNow_passedCount (s : State) (t : Word) : (s.branchNow t).passedCount = s.passedCount := rfl
@[simp] theorem State.branchNow_waits (s : State) (t : Word) : (s.branchNow t).waits = s.waits := rfl
@[simp] theorem State.branchNow_cfg (s : State) (t : Word) : (s.branchNow t).cfg = s.cfg := rfl
@[simp] theorem State.branchNow_reg (s : State) (t : Word) (r : Reg) : (s.branchNow t).reg r = s.reg r := rfl
@[simp] theorem State.branchNow_tBit (s : State) (t : Word) : (s.branchNow t).tBit = s.tBit := rfl
@[simp] theorem State.branchNow_sBit (s : State) (t : Word) : (s.branchNow t).sBit = s.sBit := rfl
@[simp] theorem State.branchNow_qBit (s : State) (t : Word) : (s.branchNow t).qBit = s.qBit := rfl
@[simp] theorem State.branchNow_mBit (s : State) (t : Word) : (s.branchNow t).mBit = s.mBit := rfl
@[simp] theorem State.branchNow_imask (s : State) (t : Word) : (s.branchNow t).imask = s.imask := rfl

/-! ### State.delayedBranch -/

@[simp] theorem State.delayedBranch_regs (s : State) (t : Option Word) : (s.delayedBranch t).regs = s.regs := rfl
@[simp] theorem State.delayedBranch_sr (s : State) (t : Option Word) : (s.delayedBranch t).sr = s.sr := rfl
@[simp] theorem State.delayedBranch_gbr (s : State) (t : Option Word) : (s.delayedBranch t).gbr = s.gbr := rfl
@[simp] theorem State.delayedBranch_vbr (s : State) (t : Option Word) : (s.delayedBranch t).vbr = s.vbr := rfl
@[simp] theorem State.delayedBranch_mach (s : State) (t : Option Word) : (s.delayedBranch t).mach = s.mach := rfl
@[simp] theorem State.delayedBranch_macl (s : State) (t : Option Word) : (s.delayedBranch t).macl = s.macl := rfl
@[simp] theorem State.delayedBranch_pr (s : State) (t : Option Word) : (s.delayedBranch t).pr = s.pr := rfl
@[simp] theorem State.delayedBranch_pc (s : State) (t : Option Word) : (s.delayedBranch t).pc = s.pc + 2 := rfl
@[simp] theorem State.delayedBranch_delayTarget (s : State) (t : Option Word) : (s.delayedBranch t).delayTarget = t := rfl
@[simp] theorem State.delayedBranch_slotAfterUntaken (s : State) (t : Option Word) : (s.delayedBranch t).slotAfterUntaken = false := rfl
@[simp] theorem State.delayedBranch_intInhibit (s : State) (t : Option Word) : (s.delayedBranch t).intInhibit = true := rfl
@[simp] theorem State.delayedBranch_power (s : State) (t : Option Word) : (s.delayedBranch t).power = s.power := rfl
@[simp] theorem State.delayedBranch_mem (s : State) (t : Option Word) : (s.delayedBranch t).mem = s.mem := rfl
@[simp] theorem State.delayedBranch_recentStores (s : State) (t : Option Word) : (s.delayedBranch t).recentStores = s.recentStores := rfl
@[simp] theorem State.delayedBranch_pending (s : State) (t : Option Word) : (s.delayedBranch t).pending = s.pending := rfl
@[simp] theorem State.delayedBranch_lastAccepted (s : State) (t : Option Word) : (s.delayedBranch t).lastAccepted = s.lastAccepted := rfl
@[simp] theorem State.delayedBranch_resetRequest (s : State) (t : Option Word) : (s.delayedBranch t).resetRequest = s.resetRequest := rfl
@[simp] theorem State.delayedBranch_acceptedCount (s : State) (t : Option Word) : (s.delayedBranch t).acceptedCount = s.acceptedCount := rfl
@[simp] theorem State.delayedBranch_passedCount (s : State) (t : Option Word) : (s.delayedBranch t).passedCount = s.passedCount := rfl
@[simp] theorem State.delayedBranch_waits (s : State) (t : Option Word) : (s.delayedBranch t).waits = s.waits := rfl
@[simp] theorem State.delayedBranch_cfg (s : State) (t : Option Word) : (s.delayedBranch t).cfg = s.cfg := rfl
@[simp] theorem State.delayedBranch_reg (s : State) (t : Option Word) (r : Reg) : (s.delayedBranch t).reg r = s.reg r := rfl
@[simp] theorem State.delayedBranch_tBit (s : State) (t : Option Word) : (s.delayedBranch t).tBit = s.tBit := rfl
@[simp] theorem State.delayedBranch_sBit (s : State) (t : Option Word) : (s.delayedBranch t).sBit = s.sBit := rfl
@[simp] theorem State.delayedBranch_qBit (s : State) (t : Option Word) : (s.delayedBranch t).qBit = s.qBit := rfl
@[simp] theorem State.delayedBranch_mBit (s : State) (t : Option Word) : (s.delayedBranch t).mBit = s.mBit := rfl
@[simp] theorem State.delayedBranch_imask (s : State) (t : Option Word) : (s.delayedBranch t).imask = s.imask := rfl

/-! ### State.delayedConditional -/

@[simp] theorem State.delayedConditional_regs (s : State) (b : Bool) (d : BitVec 8) : (s.delayedConditional b d).regs = s.regs := rfl
@[simp] theorem State.delayedConditional_sr (s : State) (b : Bool) (d : BitVec 8) : (s.delayedConditional b d).sr = s.sr := rfl
@[simp] theorem State.delayedConditional_gbr (s : State) (b : Bool) (d : BitVec 8) : (s.delayedConditional b d).gbr = s.gbr := rfl
@[simp] theorem State.delayedConditional_vbr (s : State) (b : Bool) (d : BitVec 8) : (s.delayedConditional b d).vbr = s.vbr := rfl
@[simp] theorem State.delayedConditional_mach (s : State) (b : Bool) (d : BitVec 8) : (s.delayedConditional b d).mach = s.mach := rfl
@[simp] theorem State.delayedConditional_macl (s : State) (b : Bool) (d : BitVec 8) : (s.delayedConditional b d).macl = s.macl := rfl
@[simp] theorem State.delayedConditional_pr (s : State) (b : Bool) (d : BitVec 8) : (s.delayedConditional b d).pr = s.pr := rfl
@[simp] theorem State.delayedConditional_pc (s : State) (b : Bool) (d : BitVec 8) : (s.delayedConditional b d).pc = s.pc + 2 := rfl
@[simp] theorem State.delayedConditional_delayTarget (s : State) (b : Bool) (d : BitVec 8) : (s.delayedConditional b d).delayTarget = s.conditionalTarget b d := rfl
@[simp] theorem State.delayedConditional_slotAfterUntaken (s : State) (b : Bool) (d : BitVec 8) : (s.delayedConditional b d).slotAfterUntaken = (!b && s.cfg.bcsSlotCheckAlways) := rfl
@[simp] theorem State.delayedConditional_intInhibit (s : State) (b : Bool) (d : BitVec 8) : (s.delayedConditional b d).intInhibit = true := rfl
@[simp] theorem State.delayedConditional_power (s : State) (b : Bool) (d : BitVec 8) : (s.delayedConditional b d).power = s.power := rfl
@[simp] theorem State.delayedConditional_mem (s : State) (b : Bool) (d : BitVec 8) : (s.delayedConditional b d).mem = s.mem := rfl
@[simp] theorem State.delayedConditional_recentStores (s : State) (b : Bool) (d : BitVec 8) : (s.delayedConditional b d).recentStores = s.recentStores := rfl
@[simp] theorem State.delayedConditional_pending (s : State) (b : Bool) (d : BitVec 8) : (s.delayedConditional b d).pending = s.pending := rfl
@[simp] theorem State.delayedConditional_lastAccepted (s : State) (b : Bool) (d : BitVec 8) : (s.delayedConditional b d).lastAccepted = s.lastAccepted := rfl
@[simp] theorem State.delayedConditional_resetRequest (s : State) (b : Bool) (d : BitVec 8) : (s.delayedConditional b d).resetRequest = s.resetRequest := rfl
@[simp] theorem State.delayedConditional_acceptedCount (s : State) (b : Bool) (d : BitVec 8) : (s.delayedConditional b d).acceptedCount = s.acceptedCount := rfl
@[simp] theorem State.delayedConditional_passedCount (s : State) (b : Bool) (d : BitVec 8) : (s.delayedConditional b d).passedCount = s.passedCount := rfl
@[simp] theorem State.delayedConditional_waits (s : State) (b : Bool) (d : BitVec 8) : (s.delayedConditional b d).waits = s.waits := rfl
@[simp] theorem State.delayedConditional_cfg (s : State) (b : Bool) (d : BitVec 8) : (s.delayedConditional b d).cfg = s.cfg := rfl
@[simp] theorem State.delayedConditional_reg (s : State) (b : Bool) (d : BitVec 8) (r : Reg) : (s.delayedConditional b d).reg r = s.reg r := rfl
@[simp] theorem State.delayedConditional_tBit (s : State) (b : Bool) (d : BitVec 8) : (s.delayedConditional b d).tBit = s.tBit := rfl
@[simp] theorem State.delayedConditional_sBit (s : State) (b : Bool) (d : BitVec 8) : (s.delayedConditional b d).sBit = s.sBit := rfl
@[simp] theorem State.delayedConditional_qBit (s : State) (b : Bool) (d : BitVec 8) : (s.delayedConditional b d).qBit = s.qBit := rfl
@[simp] theorem State.delayedConditional_mBit (s : State) (b : Bool) (d : BitVec 8) : (s.delayedConditional b d).mBit = s.mBit := rfl
@[simp] theorem State.delayedConditional_imask (s : State) (b : Bool) (d : BitVec 8) : (s.delayedConditional b d).imask = s.imask := rfl

/-! ### State.passBoundary -/

@[simp] theorem State.passBoundary_regs (s : State) : (s.passBoundary).regs = s.regs := rfl
@[simp] theorem State.passBoundary_sr (s : State) : (s.passBoundary).sr = s.sr := rfl
@[simp] theorem State.passBoundary_gbr (s : State) : (s.passBoundary).gbr = s.gbr := rfl
@[simp] theorem State.passBoundary_vbr (s : State) : (s.passBoundary).vbr = s.vbr := rfl
@[simp] theorem State.passBoundary_mach (s : State) : (s.passBoundary).mach = s.mach := rfl
@[simp] theorem State.passBoundary_macl (s : State) : (s.passBoundary).macl = s.macl := rfl
@[simp] theorem State.passBoundary_pr (s : State) : (s.passBoundary).pr = s.pr := rfl
@[simp] theorem State.passBoundary_pc (s : State) : (s.passBoundary).pc = s.pc := rfl
@[simp] theorem State.passBoundary_delayTarget (s : State) : (s.passBoundary).delayTarget = s.delayTarget := rfl
@[simp] theorem State.passBoundary_slotAfterUntaken (s : State) : (s.passBoundary).slotAfterUntaken = s.slotAfterUntaken := rfl
@[simp] theorem State.passBoundary_intInhibit (s : State) : (s.passBoundary).intInhibit = s.intInhibit := rfl
@[simp] theorem State.passBoundary_power (s : State) : (s.passBoundary).power = s.power := rfl
@[simp] theorem State.passBoundary_mem (s : State) : (s.passBoundary).mem = s.mem := rfl
@[simp] theorem State.passBoundary_recentStores (s : State) : (s.passBoundary).recentStores = s.recentStores := rfl
@[simp] theorem State.passBoundary_pending (s : State) : (s.passBoundary).pending = s.pending := rfl
@[simp] theorem State.passBoundary_lastAccepted (s : State) : (s.passBoundary).lastAccepted = s.lastAccepted := rfl
@[simp] theorem State.passBoundary_resetRequest (s : State) : (s.passBoundary).resetRequest = s.resetRequest := rfl
@[simp] theorem State.passBoundary_acceptedCount (s : State) : (s.passBoundary).acceptedCount = s.acceptedCount := rfl
@[simp] theorem State.passBoundary_passedCount (s : State) : (s.passBoundary).passedCount = if s.acceptableRequests.isEmpty then s.passedCount else s.passedCount + 1 := rfl
@[simp] theorem State.passBoundary_waits (s : State) : (s.passBoundary).waits = s.acceptableRequests.map fun q => (q, waitOf s.waits q + 1) := rfl
@[simp] theorem State.passBoundary_cfg (s : State) : (s.passBoundary).cfg = s.cfg := rfl
@[simp] theorem State.passBoundary_reg (s : State) (r : Reg) : (s.passBoundary).reg r = s.reg r := rfl
@[simp] theorem State.passBoundary_tBit (s : State) : (s.passBoundary).tBit = s.tBit := rfl
@[simp] theorem State.passBoundary_sBit (s : State) : (s.passBoundary).sBit = s.sBit := rfl
@[simp] theorem State.passBoundary_qBit (s : State) : (s.passBoundary).qBit = s.qBit := rfl
@[simp] theorem State.passBoundary_mBit (s : State) : (s.passBoundary).mBit = s.mBit := rfl
@[simp] theorem State.passBoundary_imask (s : State) : (s.passBoundary).imask = s.imask := rfl
@[simp] theorem State.passBoundary_nextPc (s : State) : (s.passBoundary).nextPc = s.nextPc := rfl
@[simp] theorem State.passBoundary_storesAfterAdvance (s : State) : (s.passBoundary).storesAfterAdvance = s.storesAfterAdvance := rfl

/-! ### State.reportAccepted -/

@[simp] theorem State.reportAccepted_regs (s : State) (q : IntRequest) : (s.reportAccepted q).regs = s.regs := rfl
@[simp] theorem State.reportAccepted_sr (s : State) (q : IntRequest) : (s.reportAccepted q).sr = s.sr := rfl
@[simp] theorem State.reportAccepted_gbr (s : State) (q : IntRequest) : (s.reportAccepted q).gbr = s.gbr := rfl
@[simp] theorem State.reportAccepted_vbr (s : State) (q : IntRequest) : (s.reportAccepted q).vbr = s.vbr := rfl
@[simp] theorem State.reportAccepted_mach (s : State) (q : IntRequest) : (s.reportAccepted q).mach = s.mach := rfl
@[simp] theorem State.reportAccepted_macl (s : State) (q : IntRequest) : (s.reportAccepted q).macl = s.macl := rfl
@[simp] theorem State.reportAccepted_pr (s : State) (q : IntRequest) : (s.reportAccepted q).pr = s.pr := rfl
@[simp] theorem State.reportAccepted_pc (s : State) (q : IntRequest) : (s.reportAccepted q).pc = s.pc := rfl
@[simp] theorem State.reportAccepted_delayTarget (s : State) (q : IntRequest) : (s.reportAccepted q).delayTarget = s.delayTarget := rfl
@[simp] theorem State.reportAccepted_slotAfterUntaken (s : State) (q : IntRequest) : (s.reportAccepted q).slotAfterUntaken = s.slotAfterUntaken := rfl
@[simp] theorem State.reportAccepted_intInhibit (s : State) (q : IntRequest) : (s.reportAccepted q).intInhibit = s.intInhibit := rfl
@[simp] theorem State.reportAccepted_power (s : State) (q : IntRequest) : (s.reportAccepted q).power = s.power := rfl
@[simp] theorem State.reportAccepted_mem (s : State) (q : IntRequest) : (s.reportAccepted q).mem = s.mem := rfl
@[simp] theorem State.reportAccepted_recentStores (s : State) (q : IntRequest) : (s.reportAccepted q).recentStores = s.recentStores := rfl
@[simp] theorem State.reportAccepted_pending (s : State) (q : IntRequest) : (s.reportAccepted q).pending = if Config.requestWithdrawn s.acceptedCount then s.pending.erase q else s.pending := rfl
@[simp] theorem State.reportAccepted_lastAccepted (s : State) (q : IntRequest) : (s.reportAccepted q).lastAccepted = some q := rfl
@[simp] theorem State.reportAccepted_resetRequest (s : State) (q : IntRequest) : (s.reportAccepted q).resetRequest = s.resetRequest := rfl
@[simp] theorem State.reportAccepted_acceptedCount (s : State) (q : IntRequest) : (s.reportAccepted q).acceptedCount = s.acceptedCount + 1 := rfl
@[simp] theorem State.reportAccepted_passedCount (s : State) (q : IntRequest) : (s.reportAccepted q).passedCount = 0 := rfl
@[simp] theorem State.reportAccepted_waits (s : State) (q : IntRequest) : (s.reportAccepted q).waits = [] := rfl
@[simp] theorem State.reportAccepted_cfg (s : State) (q : IntRequest) : (s.reportAccepted q).cfg = s.cfg := rfl
@[simp] theorem State.reportAccepted_reg (s : State) (q : IntRequest) (r : Reg) : (s.reportAccepted q).reg r = s.reg r := rfl
@[simp] theorem State.reportAccepted_tBit (s : State) (q : IntRequest) : (s.reportAccepted q).tBit = s.tBit := rfl
@[simp] theorem State.reportAccepted_sBit (s : State) (q : IntRequest) : (s.reportAccepted q).sBit = s.sBit := rfl
@[simp] theorem State.reportAccepted_qBit (s : State) (q : IntRequest) : (s.reportAccepted q).qBit = s.qBit := rfl
@[simp] theorem State.reportAccepted_mBit (s : State) (q : IntRequest) : (s.reportAccepted q).mBit = s.mBit := rfl
@[simp] theorem State.reportAccepted_imask (s : State) (q : IntRequest) : (s.reportAccepted q).imask = s.imask := rfl
@[simp] theorem State.reportAccepted_nextPc (s : State) (q : IntRequest) : (s.reportAccepted q).nextPc = s.nextPc := rfl
@[simp] theorem State.reportAccepted_storesAfterAdvance (s : State) (q : IntRequest) : (s.reportAccepted q).storesAfterAdvance = s.storesAfterAdvance := rfl

/-! ### State.ageStores -/

@[simp] theorem State.ageStores_regs (s : State) : (s.ageStores).regs = s.regs := rfl
@[simp] theorem State.ageStores_sr (s : State) : (s.ageStores).sr = s.sr := rfl
@[simp] theorem State.ageStores_gbr (s : State) : (s.ageStores).gbr = s.gbr := rfl
@[simp] theorem State.ageStores_vbr (s : State) : (s.ageStores).vbr = s.vbr := rfl
@[simp] theorem State.ageStores_mach (s : State) : (s.ageStores).mach = s.mach := rfl
@[simp] theorem State.ageStores_macl (s : State) : (s.ageStores).macl = s.macl := rfl
@[simp] theorem State.ageStores_pr (s : State) : (s.ageStores).pr = s.pr := rfl
@[simp] theorem State.ageStores_pc (s : State) : (s.ageStores).pc = s.pc := rfl
@[simp] theorem State.ageStores_delayTarget (s : State) : (s.ageStores).delayTarget = s.delayTarget := rfl
@[simp] theorem State.ageStores_slotAfterUntaken (s : State) : (s.ageStores).slotAfterUntaken = s.slotAfterUntaken := rfl
@[simp] theorem State.ageStores_intInhibit (s : State) : (s.ageStores).intInhibit = s.intInhibit := rfl
@[simp] theorem State.ageStores_power (s : State) : (s.ageStores).power = s.power := rfl
@[simp] theorem State.ageStores_mem (s : State) : (s.ageStores).mem = s.mem := rfl
@[simp] theorem State.ageStores_recentStores (s : State) : (s.ageStores).recentStores = ageRecords s.recentStores := rfl
@[simp] theorem State.ageStores_pending (s : State) : (s.ageStores).pending = s.pending := rfl
@[simp] theorem State.ageStores_lastAccepted (s : State) : (s.ageStores).lastAccepted = s.lastAccepted := rfl
@[simp] theorem State.ageStores_resetRequest (s : State) : (s.ageStores).resetRequest = s.resetRequest := rfl
@[simp] theorem State.ageStores_acceptedCount (s : State) : (s.ageStores).acceptedCount = s.acceptedCount := rfl
@[simp] theorem State.ageStores_passedCount (s : State) : (s.ageStores).passedCount = s.passedCount := rfl
@[simp] theorem State.ageStores_waits (s : State) : (s.ageStores).waits = s.waits := rfl
@[simp] theorem State.ageStores_cfg (s : State) : (s.ageStores).cfg = s.cfg := rfl
@[simp] theorem State.ageStores_reg (s : State) (r : Reg) : (s.ageStores).reg r = s.reg r := rfl
@[simp] theorem State.ageStores_tBit (s : State) : (s.ageStores).tBit = s.tBit := rfl
@[simp] theorem State.ageStores_sBit (s : State) : (s.ageStores).sBit = s.sBit := rfl
@[simp] theorem State.ageStores_qBit (s : State) : (s.ageStores).qBit = s.qBit := rfl
@[simp] theorem State.ageStores_mBit (s : State) : (s.ageStores).mBit = s.mBit := rfl
@[simp] theorem State.ageStores_imask (s : State) : (s.ageStores).imask = s.imask := rfl
@[simp] theorem State.ageStores_nextPc (s : State) : (s.ageStores).nextPc = s.nextPc := rfl

/-! ### State.placeCode -/

@[simp] theorem State.placeCode_regs (s : State) (w : Half) : (s.placeCode w).regs = s.regs := rfl
@[simp] theorem State.placeCode_sr (s : State) (w : Half) : (s.placeCode w).sr = s.sr := rfl
@[simp] theorem State.placeCode_gbr (s : State) (w : Half) : (s.placeCode w).gbr = s.gbr := rfl
@[simp] theorem State.placeCode_vbr (s : State) (w : Half) : (s.placeCode w).vbr = s.vbr := rfl
@[simp] theorem State.placeCode_mach (s : State) (w : Half) : (s.placeCode w).mach = s.mach := rfl
@[simp] theorem State.placeCode_macl (s : State) (w : Half) : (s.placeCode w).macl = s.macl := rfl
@[simp] theorem State.placeCode_pr (s : State) (w : Half) : (s.placeCode w).pr = s.pr := rfl
@[simp] theorem State.placeCode_pc (s : State) (w : Half) : (s.placeCode w).pc = s.pc := rfl
@[simp] theorem State.placeCode_delayTarget (s : State) (w : Half) : (s.placeCode w).delayTarget = s.delayTarget := rfl
@[simp] theorem State.placeCode_slotAfterUntaken (s : State) (w : Half) : (s.placeCode w).slotAfterUntaken = s.slotAfterUntaken := rfl
@[simp] theorem State.placeCode_intInhibit (s : State) (w : Half) : (s.placeCode w).intInhibit = s.intInhibit := rfl
@[simp] theorem State.placeCode_power (s : State) (w : Half) : (s.placeCode w).power = .run := rfl
@[simp] theorem State.placeCode_mem (s : State) (w : Half) : (s.placeCode w).mem = s.mem.setHalf false s.pc w := rfl
@[simp] theorem State.placeCode_recentStores (s : State) (w : Half) : (s.placeCode w).recentStores = [] := rfl
@[simp] theorem State.placeCode_pending (s : State) (w : Half) : (s.placeCode w).pending = [] := rfl
@[simp] theorem State.placeCode_lastAccepted (s : State) (w : Half) : (s.placeCode w).lastAccepted = s.lastAccepted := rfl
@[simp] theorem State.placeCode_resetRequest (s : State) (w : Half) : (s.placeCode w).resetRequest = none := rfl
@[simp] theorem State.placeCode_acceptedCount (s : State) (w : Half) : (s.placeCode w).acceptedCount = s.acceptedCount := rfl
@[simp] theorem State.placeCode_passedCount (s : State) (w : Half) : (s.placeCode w).passedCount = s.passedCount := rfl
@[simp] theorem State.placeCode_waits (s : State) (w : Half) : (s.placeCode w).waits = s.waits := rfl
@[simp] theorem State.placeCode_cfg (s : State) (w : Half) : (s.placeCode w).cfg = s.cfg := rfl
@[simp] theorem State.placeCode_reg (s : State) (w : Half) (r : Reg) : (s.placeCode w).reg r = s.reg r := rfl
@[simp] theorem State.placeCode_tBit (s : State) (w : Half) : (s.placeCode w).tBit = s.tBit := rfl
@[simp] theorem State.placeCode_sBit (s : State) (w : Half) : (s.placeCode w).sBit = s.sBit := rfl
@[simp] theorem State.placeCode_qBit (s : State) (w : Half) : (s.placeCode w).qBit = s.qBit := rfl
@[simp] theorem State.placeCode_mBit (s : State) (w : Half) : (s.placeCode w).mBit = s.mBit := rfl
@[simp] theorem State.placeCode_imask (s : State) (w : Half) : (s.placeCode w).imask = s.imask := rfl

/-! ### Reading a register after writing one -/

/-- A register written and read back. -/
@[simp] theorem State.setReg_reg_same (s : State) (n : Reg) (v : Word) : (s.setReg n v).reg n = v := by
  simp [State.reg, State.setReg]

/-- A register written leaves every other register alone. -/
theorem State.setReg_reg_ne (s : State) {n r : Reg} (v : Word) (h : r ≠ n) : (s.setReg n v).reg r = s.reg r := by
  have h' : ¬ n.val = r.val := fun e => h (Fin.ext e.symm)
  simp [State.reg, State.setReg, h']

/-- What every register holds after one is written. -/
theorem State.setReg_reg (s : State) (n r : Reg) (v : Word) :
    (s.setReg n v).reg r = if r = n then v else s.reg r := by
  by_cases h : r = n
  · subst h; simp
  · simp [h, State.setReg_reg_ne s v h]

/-! ### The status register after one of its bits is written -/

theorem putBit_getLsbD (w : Word) (i j : Nat) (b : Bool) (h : j < 32) :
    (putBit w i b).getLsbD j = if j = i then b else w.getLsbD j := by
  cases b <;> by_cases hj : j = i <;> simp [putBit, h, hj] <;> omega

@[simp] theorem State.setT_tBit (s : State) (b : Bool) : (s.setT b).tBit = b := by
  simp only [State.tBit, State.setT_sr, putBit_getLsbD _ _ _ _ (show 0 < 32 by decide)]; rfl
@[simp] theorem State.setT_sBit (s : State) (b : Bool) : (s.setT b).sBit = s.sBit := by
  simp only [State.sBit, State.setT_sr, putBit_getLsbD _ _ _ _ (show 1 < 32 by decide)]; rfl
@[simp] theorem State.setT_qBit (s : State) (b : Bool) : (s.setT b).qBit = s.qBit := by
  simp only [State.qBit, State.setT_sr, putBit_getLsbD _ _ _ _ (show 8 < 32 by decide)]; rfl
@[simp] theorem State.setT_mBit (s : State) (b : Bool) : (s.setT b).mBit = s.mBit := by
  simp only [State.mBit, State.setT_sr, putBit_getLsbD _ _ _ _ (show 9 < 32 by decide)]; rfl
@[simp] theorem State.setQ_tBit (s : State) (b : Bool) : (s.setQ b).tBit = s.tBit := by
  simp only [State.tBit, State.setQ_sr, putBit_getLsbD _ _ _ _ (show 0 < 32 by decide)]; rfl
@[simp] theorem State.setQ_sBit (s : State) (b : Bool) : (s.setQ b).sBit = s.sBit := by
  simp only [State.sBit, State.setQ_sr, putBit_getLsbD _ _ _ _ (show 1 < 32 by decide)]; rfl
@[simp] theorem State.setQ_qBit (s : State) (b : Bool) : (s.setQ b).qBit = b := by
  simp only [State.qBit, State.setQ_sr, putBit_getLsbD _ _ _ _ (show 8 < 32 by decide)]; rfl
@[simp] theorem State.setQ_mBit (s : State) (b : Bool) : (s.setQ b).mBit = s.mBit := by
  simp only [State.mBit, State.setQ_sr, putBit_getLsbD _ _ _ _ (show 9 < 32 by decide)]; rfl
@[simp] theorem State.setM_tBit (s : State) (b : Bool) : (s.setM b).tBit = s.tBit := by
  simp only [State.tBit, State.setM_sr, putBit_getLsbD _ _ _ _ (show 0 < 32 by decide)]; rfl
@[simp] theorem State.setM_sBit (s : State) (b : Bool) : (s.setM b).sBit = s.sBit := by
  simp only [State.sBit, State.setM_sr, putBit_getLsbD _ _ _ _ (show 1 < 32 by decide)]; rfl
@[simp] theorem State.setM_qBit (s : State) (b : Bool) : (s.setM b).qBit = s.qBit := by
  simp only [State.qBit, State.setM_sr, putBit_getLsbD _ _ _ _ (show 8 < 32 by decide)]; rfl
@[simp] theorem State.setM_mBit (s : State) (b : Bool) : (s.setM b).mBit = b := by
  simp only [State.mBit, State.setM_sr, putBit_getLsbD _ _ _ _ (show 9 < 32 by decide)]; rfl


end Sys2Proof.Machine
end

