-- ==== Sys2Proof/Laws/Ops.lean ====
section
/-! SUPPORT. For each shared operation, once, everything it can do. -/
set_option Elab.async false
namespace Sys2Proof.Machine

/-! ### Data accesses -/

/-- An access answers a value exactly when it is aligned and admitted. -/
theorem checkedAccess_ok {α : Type} {s : State} {kind : AccessKind} {bytes : Nat} {al : Bool} {a : Word} {v w : α} :
    checkedAccess s kind bytes al a v = .ok w ↔ al = true ∧ memAdmits s.cfg a bytes kind = true ∧ v = w := by
  unfold checkedAccess
  cases al <;> cases memAdmits s.cfg a bytes kind <;> simp

/-- An access is an address error exactly when it is misaligned, whatever the platform says. -/
theorem checkedAccess_addressError {α : Type} {s : State} {kind k' : AccessKind} {bytes : Nat} {al : Bool}
    {a a' : Word} {v : α} :
    checkedAccess s kind bytes al a v = .addressError k' a' ↔ al = false ∧ kind = k' ∧ a = a' := by
  unfold checkedAccess
  cases al <;> cases memAdmits s.cfg a bytes kind <;> simp

/-- An access is refused exactly when it is aligned and the platform does not admit it. -/
theorem checkedAccess_refused {α : Type} {s : State} {kind k' : AccessKind} {bytes : Nat} {al : Bool}
    {a a' : Word} {v : α} :
    checkedAccess s kind bytes al a v = .refused k' a' ↔
      al = true ∧ memAdmits s.cfg a bytes kind = false ∧ kind = k' ∧ a = a' := by
  unfold checkedAccess
  cases al <;> cases memAdmits s.cfg a bytes kind <;> simp

theorem State.readByte_ok {s : State} {a : Word} {v : Byte} :
    s.readByte a = .ok v ↔ memAdmits s.cfg a 1 .read = true ∧ s.mem.byte a = v := by
  simp [State.readByte, checkedAccess_ok]

theorem State.readHalf_ok {s : State} {a : Word} {v : Half} :
    s.readHalf a = .ok v ↔ alignedHalf a = true ∧ memAdmits s.cfg a 2 .read = true ∧
      s.mem.half (littleEndian s.cfg a) a = v := checkedAccess_ok

theorem State.readLong_ok {s : State} {a : Word} {v : Word} :
    s.readLong a = .ok v ↔ alignedLong a = true ∧ memAdmits s.cfg a 4 .read = true ∧
      s.mem.long (littleEndian s.cfg a) a = v := checkedAccess_ok

theorem State.writeByte_ok {s t : State} {a : Word} {v : Byte} :
    s.writeByte a v = .ok t ↔ memAdmits s.cfg a 1 .write = true ∧ s.stored a 1 (s.mem.setByte a v) = t := by
  simp [State.writeByte, checkedAccess_ok]

theorem State.writeHalf_ok {s t : State} {a : Word} {v : Half} :
    s.writeHalf a v = .ok t ↔ alignedHalf a = true ∧ memAdmits s.cfg a 2 .write = true ∧
      s.stored a 2 (s.mem.setHalf (littleEndian s.cfg a) a v) = t := checkedAccess_ok

theorem State.writeLong_ok {s t : State} {a : Word} {v : Word} :
    s.writeLong a v = .ok t ↔ alignedLong a = true ∧ memAdmits s.cfg a 4 .write = true ∧
      s.stored a 4 (s.mem.setLong (littleEndian s.cfg a) a v) = t := checkedAccess_ok

/-- A chain of accesses answers a value exactly when each of them does. -/
theorem Access.bind_ok {α β : Type} {x : Access α} {k : α → Access β} {w : β} :
    x.bind k = .ok w ↔ ∃ v, x = .ok v ∧ k v = .ok w := by
  cases x <;> simp [Access.bind]

/-- What an instruction's access can lead to: the access answered and the instruction goes on, or it was misaligned
and the address error exception is taken from the state before the instruction. -/
theorem State.onAccess_next {α : Type} {s t : State} {x : Access α} {k : α → Result} :
    s.onAccess x k = .next t ↔
      (∃ v, x = .ok v ∧ k v = .next t) ∨ (∃ kind a, x = .addressError kind a ∧ s.addressErrorException = .next t) := by
  cases x <;> simp [State.onAccess]

@[simp] theorem State.onAccess_ok {α : Type} (s : State) (v : α) (k : α → Result) : s.onAccess (.ok v) k = k v := rfl

/-! ### Guards -/

/-- An instruction that rewrites the PC completes only outside a slot; in a slot it is an illegal instruction. -/
theorem State.outsideSlot_none {s : State} (h : s.delayTarget = none) (r : Result) : s.outsideSlot r = r := by
  simp [State.outsideSlot, h]

theorem State.outsideSlot_some {s : State} {d : Word} (h : s.delayTarget = some d) (r : Result) :
    s.outsideSlot r = s.illegalInstruction := by
  simp [State.outsideSlot, h]

theorem State.onSh2_sh2 {s : State} (h : s.cfg.cpu = .sh2) (r : Result) : s.onSh2 r = r := by
  simp [State.onSh2, h]

theorem State.onSh2_sh1 {s : State} (h : s.cfg.cpu = .sh1) (r : Result) : s.onSh2 r = s.illegalInstruction := by
  simp [State.onSh2, h]

/-! ### Exception entry -/

/-- The memory after SR and the return PC are pushed. -/
def State.pushedMem (s : State) (ret : Word) : Memory :=
  (s.mem.setLong (littleEndian s.cfg (s.reg 15 - 4)) (s.reg 15 - 4) s.sr).setLong
    (littleEndian s.cfg (s.reg 15 - 8)) (s.reg 15 - 8) ret

/-- Exception entry answers a state exactly when the two pushes and the vector read are aligned and admitted, and then
the state is this one. -/
theorem State.enterHandler_ok {s t : State} {vec : BitVec 8} {ret : Word} {mask : Option (BitVec 4)} :
    s.enterHandler vec ret mask = .ok t ↔
      (alignedLong (s.reg 15 - 4) = true ∧ memAdmits s.cfg (s.reg 15 - 4) 4 .write = true) ∧
      (alignedLong (s.reg 15 - 8) = true ∧ memAdmits s.cfg (s.reg 15 - 8) 4 .write = true) ∧
      (alignedLong (s.vbr + zext8 vec * 4) = true ∧ memAdmits s.cfg (s.vbr + zext8 vec * 4) 4 .read = true) ∧
      t = { s.setReg 15 (s.reg 15 - 8) with
        mem := s.pushedMem ret
        sr := match mask with
          | none => s.sr
          | some l => withMask s.sr l
        delayTarget := none
        slotAfterUntaken := false
        intInhibit := false
        power := .run
        recentStores := []
        pc := (s.pushedMem ret).long (littleEndian s.cfg (s.vbr + zext8 vec * 4)) (s.vbr + zext8 vec * 4) } := by
  simp only [State.enterHandler, Access.bind_ok, State.writeLong_ok, State.readLong_ok]
  constructor
  · rintro ⟨s1, ⟨a1, b1, rfl⟩, s2, ⟨a2, b2, rfl⟩, v, ⟨a3, b3, rfl⟩, h⟩
    refine ⟨⟨a1, b1⟩, ⟨a2, b2⟩, ⟨a3, b3⟩, ?_⟩
    injection h with h
    exact h.symm
  · rintro ⟨⟨a1, b1⟩, ⟨a2, b2⟩, ⟨a3, b3⟩, rfl⟩
    exact ⟨_, ⟨a1, b1, rfl⟩, _, ⟨a2, b2, rfl⟩, _, ⟨a3, b3, rfl⟩, rfl⟩

/-- Exception processing ends in a state exactly when the entry sequence does. -/
theorem State.exceptionEntry_next {s t : State} {vec : BitVec 8} {ret : Word} {mask : Option (BitVec 4)} :
    s.exceptionEntry vec ret mask = .next t ↔ s.enterHandler vec ret mask = .ok t := by
  unfold State.exceptionEntry
  cases s.enterHandler vec ret mask <;> simp

/-- Exception processing is a double fault exactly when the entry sequence fails. -/
theorem State.exceptionEntry_fault {s : State} {vec : BitVec 8} {ret : Word} {mask : Option (BitVec 4)} :
    s.exceptionEntry vec ret mask = .fault .doubleFault ↔ ∀ t, s.enterHandler vec ret mask ≠ .ok t := by
  unfold State.exceptionEntry
  cases s.enterHandler vec ret mask <;> simp

/-- An illegal instruction is exception entry through the vector of its kind (R361, R362). -/
theorem State.illegalInstruction_eq (s : State) :
    s.illegalInstruction = s.exceptionEntry
      (match s.delayTarget with
       | some _ => s.cfg.vecSlotIllegal
       | none => s.cfg.vecIllegal)
      (s.delayTarget.getD s.pc) none := by
  unfold State.illegalInstruction
  cases s.delayTarget <;> rfl

/-! ### Loads and stores -/

theorem State.loadByte_ok {s : State} {a : Word} {v : Byte} (n : Reg) (h : s.readByte a = .ok v) :
    s.loadByte a n = .next (s.setReg n (sext8 v)).finish := by
  simp [State.loadByte, h]

theorem State.loadHalf_ok {s : State} {a : Word} {v : Half} (n : Reg) (h : s.readHalf a = .ok v) :
    s.loadHalf a n = .next (s.setReg n (sext16 v)).finish := by
  simp [State.loadHalf, h]

theorem State.loadLong_ok {s : State} {a : Word} {v : Word} (n : Reg) (h : s.readLong a = .ok v) :
    s.loadLong a n = .next (s.setReg n v).finish := by
  simp [State.loadLong, h]

theorem State.storeByte_ok {s t : State} {a v : Word} (h : s.writeByte a (lowByte v) = .ok t) :
    s.storeByte a v = .next t.finish := by
  simp [State.storeByte, h]

theorem State.storeHalf_ok {s t : State} {a v : Word} (h : s.writeHalf a (lowHalf v) = .ok t) :
    s.storeHalf a v = .next t.finish := by
  simp [State.storeHalf, h]

theorem State.storeLong_ok {s t : State} {a v : Word} (h : s.writeLong a v = .ok t) :
    s.storeLong a v = .next t.finish := by
  simp [State.storeLong, h]

theorem State.popControl_ok {s : State} {m : Reg} {v : Word} (put : State → Word → State)
    (h : s.readLong (s.reg m) = .ok v) :
    s.popControl m put = .next ((put s v).setReg m (s.reg m + 4)).finishInhibit := by
  simp [State.popControl, h]

theorem State.pushControl_ok {s t : State} {n : Reg} {v : Word} (h : s.writeLong (s.reg n - 4) v = .ok t) :
    s.pushControl n v = .next (t.setReg n (s.reg n - 4)).finishInhibit := by
  rw [State.pushControl, h]; rfl

/-! ### The canonical form of memory -/

/-- Reset leaves memory in its canonical form: nothing is listed. -/
theorem State.reset_mem_wf : State.reset.mem.wf = true := rfl

theorem State.pushedMem_wf (s : State) (ret : Word) (h : s.mem.wf = true) : (s.pushedMem ret).wf = true :=
  Memory.wf_setLong _ _ _ _ (Memory.wf_setLong _ _ _ _ h)

theorem State.writeByte_wf {s t : State} {a : Word} {v : Byte} (h : s.writeByte a v = .ok t) (hm : s.mem.wf = true) :
    t.mem.wf = true := by
  obtain ⟨-, rfl⟩ := State.writeByte_ok.mp h
  exact Memory.wf_setByte _ _ _ hm

theorem State.writeHalf_wf {s t : State} {a : Word} {v : Half} (h : s.writeHalf a v = .ok t) (hm : s.mem.wf = true) :
    t.mem.wf = true := by
  obtain ⟨-, -, rfl⟩ := State.writeHalf_ok.mp h
  exact Memory.wf_setHalf _ _ _ _ hm

theorem State.writeLong_wf {s t : State} {a : Word} {v : Word} (h : s.writeLong a v = .ok t) (hm : s.mem.wf = true) :
    t.mem.wf = true := by
  obtain ⟨-, -, rfl⟩ := State.writeLong_ok.mp h
  exact Memory.wf_setLong _ _ _ _ hm

/-- The placing of an instruction code keeps the canonical form. -/
theorem State.placeCode_wf (s : State) (w : Half) (h : s.mem.wf = true) : (s.placeCode w).mem.wf = true :=
  Memory.wf_setHalf s.mem false s.pc w h

end Sys2Proof.Machine
end

