-- ==== Sys2Proof/Laws/PerInstr.lean ====
section
/-! SUPPORT. A family of laws with one lemma per instruction: the fixed bits of an instruction's code are those of its
row of the opcode table, whatever its operands (spec/30_encoding.md R116: a word is the instruction when its fixed
bits match). -/
set_option Elab.async false
set_option linter.unusedSimpArgs false
namespace Sys2Proof.Laws

/-- Which digits of an instruction's code are fixed (`mask` of its row). -/
def fixedDigits (i : Instr) : Half :=
  match i with
  | .movImm _ _ | .movWPc _ _ | .movLPc _ _ | .movLStoreDisp _ _ _ | .movLLoadDisp _ _ _ | .addImm _ _ | .bra _
  | .bsr _ =>
    code 0xF 0x0 0x0 0x0
  | .mov _ _ | .movBStore _ _ | .movWStore _ _ | .movLStore _ _ | .movBLoad _ _ | .movWLoad _ _ | .movLLoad _ _
  | .movBStoreDec _ _ | .movWStoreDec _ _ | .movLStoreDec _ _ | .movBLoadInc _ _ | .movWLoadInc _ _
  | .movLLoadInc _ _ | .movBStoreIdx _ _ | .movWStoreIdx _ _ | .movLStoreIdx _ _ | .movBLoadIdx _ _
  | .movWLoadIdx _ _ | .movLLoadIdx _ _ | .swapB _ _ | .swapW _ _ | .xtrct _ _ | .add _ _ | .addc _ _ | .addv _ _
  | .cmpEq _ _ | .cmpHs _ _ | .cmpGe _ _ | .cmpHi _ _ | .cmpGt _ _ | .cmpStr _ _ | .div1 _ _ | .div0s _ _
  | .dmulsL _ _ | .dmuluL _ _ | .extsB _ _ | .extsW _ _ | .extuB _ _ | .extuW _ _ | .macL _ _ | .macW _ _
  | .mulL _ _ | .mulsW _ _ | .muluW _ _ | .neg _ _ | .negc _ _ | .sub _ _ | .subc _ _ | .subv _ _ | .and _ _
  | .not _ _ | .or _ _ | .tst _ _ | .xor _ _ =>
    code 0xF 0x0 0x0 0xF
  | .movBStoreDisp _ _ | .movWStoreDisp _ _ | .movBLoadDisp _ _ | .movWLoadDisp _ _ | .movBStoreGbr _
  | .movWStoreGbr _ | .movLStoreGbr _ | .movBLoadGbr _ | .movWLoadGbr _ | .movLLoadGbr _ | .mova _ | .cmpEqImm _
  | .andImm _ | .andB _ | .orImm _ | .orB _ | .tstImm _ | .tstB _ | .xorImm _ | .xorB _ | .bf _ | .bfS _ | .bt _
  | .btS _ | .trapa _ =>
    code 0xF 0xF 0x0 0x0
  | .movt _ | .cmpPl _ | .cmpPz _ | .dt _ | .tasB _ | .rotl _ | .rotr _ | .rotcl _ | .rotcr _ | .shal _ | .shar _
  | .shll _ | .shlr _ | .shll2 _ | .shlr2 _ | .shll8 _ | .shlr8 _ | .shll16 _ | .shlr16 _ | .braf _ | .bsrf _
  | .jmp _ | .jsr _ | .ldcSr _ | .ldcGbr _ | .ldcVbr _ | .ldcLSr _ | .ldcLGbr _ | .ldcLVbr _ | .ldsMach _
  | .ldsMacl _ | .ldsPr _ | .ldsLMach _ | .ldsLMacl _ | .ldsLPr _ | .stcSr _ | .stcGbr _ | .stcVbr _ | .stcLSr _
  | .stcLGbr _ | .stcLVbr _ | .stsMach _ | .stsMacl _ | .stsPr _ | .stsLMach _ | .stsLMacl _ | .stsLPr _ =>
    code 0xF 0x0 0xF 0xF
  | .div0u | .rts | .clrt | .clrmac | .nop | .rte | .sett | .sleep =>
    code 0xF 0xF 0xF 0xF

/-- The values of the fixed digits (`match` of the row). -/
def fixedValue (i : Instr) : Half :=
  match i with
  | .movImm _ _ => code 0xE 0x0 0x0 0x0
  | .movWPc _ _ => code 0x9 0x0 0x0 0x0
  | .movLPc _ _ => code 0xD 0x0 0x0 0x0
  | .mov _ _ => code 0x6 0x0 0x0 0x3
  | .movBStore _ _ => code 0x2 0x0 0x0 0x0
  | .movWStore _ _ => code 0x2 0x0 0x0 0x1
  | .movLStore _ _ => code 0x2 0x0 0x0 0x2
  | .movBLoad _ _ => code 0x6 0x0 0x0 0x0
  | .movWLoad _ _ => code 0x6 0x0 0x0 0x1
  | .movLLoad _ _ => code 0x6 0x0 0x0 0x2
  | .movBStoreDec _ _ => code 0x2 0x0 0x0 0x4
  | .movWStoreDec _ _ => code 0x2 0x0 0x0 0x5
  | .movLStoreDec _ _ => code 0x2 0x0 0x0 0x6
  | .movBLoadInc _ _ => code 0x6 0x0 0x0 0x4
  | .movWLoadInc _ _ => code 0x6 0x0 0x0 0x5
  | .movLLoadInc _ _ => code 0x6 0x0 0x0 0x6
  | .movBStoreDisp _ _ => code 0x8 0x0 0x0 0x0
  | .movWStoreDisp _ _ => code 0x8 0x1 0x0 0x0
  | .movLStoreDisp _ _ _ => code 0x1 0x0 0x0 0x0
  | .movBLoadDisp _ _ => code 0x8 0x4 0x0 0x0
  | .movWLoadDisp _ _ => code 0x8 0x5 0x0 0x0
  | .movLLoadDisp _ _ _ => code 0x5 0x0 0x0 0x0
  | .movBStoreIdx _ _ => code 0x0 0x0 0x0 0x4
  | .movWStoreIdx _ _ => code 0x0 0x0 0x0 0x5
  | .movLStoreIdx _ _ => code 0x0 0x0 0x0 0x6
  | .movBLoadIdx _ _ => code 0x0 0x0 0x0 0xC
  | .movWLoadIdx _ _ => code 0x0 0x0 0x0 0xD
  | .movLLoadIdx _ _ => code 0x0 0x0 0x0 0xE
  | .movBStoreGbr _ => code 0xC 0x0 0x0 0x0
  | .movWStoreGbr _ => code 0xC 0x1 0x0 0x0
  | .movLStoreGbr _ => code 0xC 0x2 0x0 0x0
  | .movBLoadGbr _ => code 0xC 0x4 0x0 0x0
  | .movWLoadGbr _ => code 0xC 0x5 0x0 0x0
  | .movLLoadGbr _ => code 0xC 0x6 0x0 0x0
  | .mova _ => code 0xC 0x7 0x0 0x0
  | .movt _ => code 0x0 0x0 0x2 0x9
  | .swapB _ _ => code 0x6 0x0 0x0 0x8
  | .swapW _ _ => code 0x6 0x0 0x0 0x9
  | .xtrct _ _ => code 0x2 0x0 0x0 0xD
  | .add _ _ => code 0x3 0x0 0x0 0xC
  | .addImm _ _ => code 0x7 0x0 0x0 0x0
  | .addc _ _ => code 0x3 0x0 0x0 0xE
  | .addv _ _ => code 0x3 0x0 0x0 0xF
  | .cmpEqImm _ => code 0x8 0x8 0x0 0x0
  | .cmpEq _ _ => code 0x3 0x0 0x0 0x0
  | .cmpHs _ _ => code 0x3 0x0 0x0 0x2
  | .cmpGe _ _ => code 0x3 0x0 0x0 0x3
  | .cmpHi _ _ => code 0x3 0x0 0x0 0x6
  | .cmpGt _ _ => code 0x3 0x0 0x0 0x7
  | .cmpPl _ => code 0x4 0x0 0x1 0x5
  | .cmpPz _ => code 0x4 0x0 0x1 0x1
  | .cmpStr _ _ => code 0x2 0x0 0x0 0xC
  | .div1 _ _ => code 0x3 0x0 0x0 0x4
  | .div0s _ _ => code 0x2 0x0 0x0 0x7
  | .div0u => code 0x0 0x0 0x1 0x9
  | .dmulsL _ _ => code 0x3 0x0 0x0 0xD
  | .dmuluL _ _ => code 0x3 0x0 0x0 0x5
  | .dt _ => code 0x4 0x0 0x1 0x0
  | .extsB _ _ => code 0x6 0x0 0x0 0xE
  | .extsW _ _ => code 0x6 0x0 0x0 0xF
  | .extuB _ _ => code 0x6 0x0 0x0 0xC
  | .extuW _ _ => code 0x6 0x0 0x0 0xD
  | .macL _ _ => code 0x0 0x0 0x0 0xF
  | .macW _ _ => code 0x4 0x0 0x0 0xF
  | .mulL _ _ => code 0x0 0x0 0x0 0x7
  | .mulsW _ _ => code 0x2 0x0 0x0 0xF
  | .muluW _ _ => code 0x2 0x0 0x0 0xE
  | .neg _ _ => code 0x6 0x0 0x0 0xB
  | .negc _ _ => code 0x6 0x0 0x0 0xA
  | .sub _ _ => code 0x3 0x0 0x0 0x8
  | .subc _ _ => code 0x3 0x0 0x0 0xA
  | .subv _ _ => code 0x3 0x0 0x0 0xB
  | .and _ _ => code 0x2 0x0 0x0 0x9
  | .andImm _ => code 0xC 0x9 0x0 0x0
  | .andB _ => code 0xC 0xD 0x0 0x0
  | .not _ _ => code 0x6 0x0 0x0 0x7
  | .or _ _ => code 0x2 0x0 0x0 0xB
  | .orImm _ => code 0xC 0xB 0x0 0x0
  | .orB _ => code 0xC 0xF 0x0 0x0
  | .tasB _ => code 0x4 0x0 0x1 0xB
  | .tst _ _ => code 0x2 0x0 0x0 0x8
  | .tstImm _ => code 0xC 0x8 0x0 0x0
  | .tstB _ => code 0xC 0xC 0x0 0x0
  | .xor _ _ => code 0x2 0x0 0x0 0xA
  | .xorImm _ => code 0xC 0xA 0x0 0x0
  | .xorB _ => code 0xC 0xE 0x0 0x0
  | .rotl _ => code 0x4 0x0 0x0 0x4
  | .rotr _ => code 0x4 0x0 0x0 0x5
  | .rotcl _ => code 0x4 0x0 0x2 0x4
  | .rotcr _ => code 0x4 0x0 0x2 0x5
  | .shal _ => code 0x4 0x0 0x2 0x0
  | .shar _ => code 0x4 0x0 0x2 0x1
  | .shll _ => code 0x4 0x0 0x0 0x0
  | .shlr _ => code 0x4 0x0 0x0 0x1
  | .shll2 _ => code 0x4 0x0 0x0 0x8
  | .shlr2 _ => code 0x4 0x0 0x0 0x9
  | .shll8 _ => code 0x4 0x0 0x1 0x8
  | .shlr8 _ => code 0x4 0x0 0x1 0x9
  | .shll16 _ => code 0x4 0x0 0x2 0x8
  | .shlr16 _ => code 0x4 0x0 0x2 0x9
  | .bf _ => code 0x8 0xB 0x0 0x0
  | .bfS _ => code 0x8 0xF 0x0 0x0
  | .bt _ => code 0x8 0x9 0x0 0x0
  | .btS _ => code 0x8 0xD 0x0 0x0
  | .bra _ => code 0xA 0x0 0x0 0x0
  | .braf _ => code 0x0 0x0 0x2 0x3
  | .bsr _ => code 0xB 0x0 0x0 0x0
  | .bsrf _ => code 0x0 0x0 0x0 0x3
  | .jmp _ => code 0x4 0x0 0x2 0xB
  | .jsr _ => code 0x4 0x0 0x0 0xB
  | .rts => code 0x0 0x0 0x0 0xB
  | .clrt => code 0x0 0x0 0x0 0x8
  | .clrmac => code 0x0 0x0 0x2 0x8
  | .ldcSr _ => code 0x4 0x0 0x0 0xE
  | .ldcGbr _ => code 0x4 0x0 0x1 0xE
  | .ldcVbr _ => code 0x4 0x0 0x2 0xE
  | .ldcLSr _ => code 0x4 0x0 0x0 0x7
  | .ldcLGbr _ => code 0x4 0x0 0x1 0x7
  | .ldcLVbr _ => code 0x4 0x0 0x2 0x7
  | .ldsMach _ => code 0x4 0x0 0x0 0xA
  | .ldsMacl _ => code 0x4 0x0 0x1 0xA
  | .ldsPr _ => code 0x4 0x0 0x2 0xA
  | .ldsLMach _ => code 0x4 0x0 0x0 0x6
  | .ldsLMacl _ => code 0x4 0x0 0x1 0x6
  | .ldsLPr _ => code 0x4 0x0 0x2 0x6
  | .nop => code 0x0 0x0 0x0 0x9
  | .rte => code 0x0 0x0 0x2 0xB
  | .sett => code 0x0 0x0 0x1 0x8
  | .sleep => code 0x0 0x0 0x1 0xB
  | .stcSr _ => code 0x0 0x0 0x0 0x2
  | .stcGbr _ => code 0x0 0x0 0x1 0x2
  | .stcVbr _ => code 0x0 0x0 0x2 0x2
  | .stcLSr _ => code 0x4 0x0 0x0 0x3
  | .stcLGbr _ => code 0x4 0x0 0x1 0x3
  | .stcLVbr _ => code 0x4 0x0 0x2 0x3
  | .stsMach _ => code 0x0 0x0 0x0 0xA
  | .stsMacl _ => code 0x0 0x0 0x1 0xA
  | .stsPr _ => code 0x0 0x0 0x2 0xA
  | .stsLMach _ => code 0x4 0x0 0x0 0x2
  | .stsLMacl _ => code 0x4 0x0 0x1 0x2
  | .stsLPr _ => code 0x4 0x0 0x2 0x2
  | .trapa _ => code 0xC 0x3 0x0 0x0

/-- The fixed bits of the code are those of the row. -/
def FixedBits.Statement (i : Instr) : Prop := encodeWord i &&& fixedDigits i = fixedValue i

theorem and_zero_digit (a : BitVec 4) : a &&& 0 = 0 := BitVec.and_zero
theorem and_full_digit (a : BitVec 4) : a &&& 0xF = a := BitVec.and_allOnes

theorem FixedBits.movImm (imm : BitVec 8) (n : Reg) : FixedBits.Statement (.movImm imm n) := by
  simp only [Statement, encodeWord, fixedDigits, fixedValue, code_and, and_zero_digit, and_full_digit]
theorem FixedBits.movWPc (disp : BitVec 8) (n : Reg) : FixedBits.Statement (.movWPc disp n) := by
  simp only [Statement, encodeWord, fixedDigits, fixedValue, code_and, and_zero_digit, and_full_digit]
theorem FixedBits.movLPc (disp : BitVec 8) (n : Reg) : FixedBits.Statement (.movLPc disp n) := by
  simp only [Statement, encodeWord, fixedDigits, fixedValue, code_and, and_zero_digit, and_full_digit]
theorem FixedBits.mov (m : Reg) (n : Reg) : FixedBits.Statement (.mov m n) := by
  simp only [Statement, encodeWord, fixedDigits, fixedValue, code_and, and_zero_digit, and_full_digit]
theorem FixedBits.movBStore (m : Reg) (n : Reg) : FixedBits.Statement (.movBStore m n) := by
  simp only [Statement, encodeWord, fixedDigits, fixedValue, code_and, and_zero_digit, and_full_digit]
theorem FixedBits.movWStore (m : Reg) (n : Reg) : FixedBits.Statement (.movWStore m n) := by
  simp only [Statement, encodeWord, fixedDigits, fixedValue, code_and, and_zero_digit, and_full_digit]
theorem FixedBits.movLStore (m : Reg) (n : Reg) : FixedBits.Statement (.movLStore m n) := by
  simp only [Statement, encodeWord, fixedDigits, fixedValue, code_and, and_zero_digit, and_full_digit]
theorem FixedBits.movBLoad (m : Reg) (n : Reg) : FixedBits.Statement (.movBLoad m n) := by
  simp only [Statement, encodeWord, fixedDigits, fixedValue, code_and, and_zero_digit, and_full_digit]
theorem FixedBits.movWLoad (m : Reg) (n : Reg) : FixedBits.Statement (.movWLoad m n) := by
  simp only [Statement, encodeWord, fixedDigits, fixedValue, code_and, and_zero_digit, and_full_digit]
theorem FixedBits.movLLoad (m : Reg) (n : Reg) : FixedBits.Statement (.movLLoad m n) := by
  simp only [Statement, encodeWord, fixedDigits, fixedValue, code_and, and_zero_digit, and_full_digit]
theorem FixedBits.movBStoreDec (m : Reg) (n : Reg) : FixedBits.Statement (.movBStoreDec m n) := by
  simp only [Statement, encodeWord, fixedDigits, fixedValue, code_and, and_zero_digit, and_full_digit]
theorem FixedBits.movWStoreDec (m : Reg) (n : Reg) : FixedBits.Statement (.movWStoreDec m n) := by
  simp only [Statement, encodeWord, fixedDigits, fixedValue, code_and, and_zero_digit, and_full_digit]
theorem FixedBits.movLStoreDec (m : Reg) (n : Reg) : FixedBits.Statement (.movLStoreDec m n) := by
  simp only [Statement, encodeWord, fixedDigits, fixedValue, code_and, and_zero_digit, and_full_digit]
theorem FixedBits.movBLoadInc (m : Reg) (n : Reg) : FixedBits.Statement (.movBLoadInc m n) := by
  simp only [Statement, encodeWord, fixedDigits, fixedValue, code_and, and_zero_digit, and_full_digit]
theorem FixedBits.movWLoadInc (m : Reg) (n : Reg) : FixedBits.Statement (.movWLoadInc m n) := by
  simp only [Statement, encodeWord, fixedDigits, fixedValue, code_and, and_zero_digit, and_full_digit]
theorem FixedBits.movLLoadInc (m : Reg) (n : Reg) : FixedBits.Statement (.movLLoadInc m n) := by
  simp only [Statement, encodeWord, fixedDigits, fixedValue, code_and, and_zero_digit, and_full_digit]
theorem FixedBits.movBStoreDisp (disp : BitVec 4) (n : Reg) : FixedBits.Statement (.movBStoreDisp disp n) := by
  simp only [Statement, encodeWord, fixedDigits, fixedValue, code_and, and_zero_digit, and_full_digit]
theorem FixedBits.movWStoreDisp (disp : BitVec 4) (n : Reg) : FixedBits.Statement (.movWStoreDisp disp n) := by
  simp only [Statement, encodeWord, fixedDigits, fixedValue, code_and, and_zero_digit, and_full_digit]
theorem FixedBits.movLStoreDisp (m : Reg) (disp : BitVec 4) (n : Reg) : FixedBits.Statement (.movLStoreDisp m disp n) := by
  simp only [Statement, encodeWord, fixedDigits, fixedValue, code_and, and_zero_digit, and_full_digit]
theorem FixedBits.movBLoadDisp (disp : BitVec 4) (m : Reg) : FixedBits.Statement (.movBLoadDisp disp m) := by
  simp only [Statement, encodeWord, fixedDigits, fixedValue, code_and, and_zero_digit, and_full_digit]
theorem FixedBits.movWLoadDisp (disp : BitVec 4) (m : Reg) : FixedBits.Statement (.movWLoadDisp disp m) := by
  simp only [Statement, encodeWord, fixedDigits, fixedValue, code_and, and_zero_digit, and_full_digit]
theorem FixedBits.movLLoadDisp (disp : BitVec 4) (m : Reg) (n : Reg) : FixedBits.Statement (.movLLoadDisp disp m n) := by
  simp only [Statement, encodeWord, fixedDigits, fixedValue, code_and, and_zero_digit, and_full_digit]
theorem FixedBits.movBStoreIdx (m : Reg) (n : Reg) : FixedBits.Statement (.movBStoreIdx m n) := by
  simp only [Statement, encodeWord, fixedDigits, fixedValue, code_and, and_zero_digit, and_full_digit]
theorem FixedBits.movWStoreIdx (m : Reg) (n : Reg) : FixedBits.Statement (.movWStoreIdx m n) := by
  simp only [Statement, encodeWord, fixedDigits, fixedValue, code_and, and_zero_digit, and_full_digit]
theorem FixedBits.movLStoreIdx (m : Reg) (n : Reg) : FixedBits.Statement (.movLStoreIdx m n) := by
  simp only [Statement, encodeWord, fixedDigits, fixedValue, code_and, and_zero_digit, and_full_digit]
theorem FixedBits.movBLoadIdx (m : Reg) (n : Reg) : FixedBits.Statement (.movBLoadIdx m n) := by
  simp only [Statement, encodeWord, fixedDigits, fixedValue, code_and, and_zero_digit, and_full_digit]
theorem FixedBits.movWLoadIdx (m : Reg) (n : Reg) : FixedBits.Statement (.movWLoadIdx m n) := by
  simp only [Statement, encodeWord, fixedDigits, fixedValue, code_and, and_zero_digit, and_full_digit]
theorem FixedBits.movLLoadIdx (m : Reg) (n : Reg) : FixedBits.Statement (.movLLoadIdx m n) := by
  simp only [Statement, encodeWord, fixedDigits, fixedValue, code_and, and_zero_digit, and_full_digit]
theorem FixedBits.movBStoreGbr (disp : BitVec 8) : FixedBits.Statement (.movBStoreGbr disp) := by
  simp only [Statement, encodeWord, fixedDigits, fixedValue, code_and, and_zero_digit, and_full_digit]
theorem FixedBits.movWStoreGbr (disp : BitVec 8) : FixedBits.Statement (.movWStoreGbr disp) := by
  simp only [Statement, encodeWord, fixedDigits, fixedValue, code_and, and_zero_digit, and_full_digit]
theorem FixedBits.movLStoreGbr (disp : BitVec 8) : FixedBits.Statement (.movLStoreGbr disp) := by
  simp only [Statement, encodeWord, fixedDigits, fixedValue, code_and, and_zero_digit, and_full_digit]
theorem FixedBits.movBLoadGbr (disp : BitVec 8) : FixedBits.Statement (.movBLoadGbr disp) := by
  simp only [Statement, encodeWord, fixedDigits, fixedValue, code_and, and_zero_digit, and_full_digit]
theorem FixedBits.movWLoadGbr (disp : BitVec 8) : FixedBits.Statement (.movWLoadGbr disp) := by
  simp only [Statement, encodeWord, fixedDigits, fixedValue, code_and, and_zero_digit, and_full_digit]
theorem FixedBits.movLLoadGbr (disp : BitVec 8) : FixedBits.Statement (.movLLoadGbr disp) := by
  simp only [Statement, encodeWord, fixedDigits, fixedValue, code_and, and_zero_digit, and_full_digit]
theorem FixedBits.mova (disp : BitVec 8) : FixedBits.Statement (.mova disp) := by
  simp only [Statement, encodeWord, fixedDigits, fixedValue, code_and, and_zero_digit, and_full_digit]
theorem FixedBits.movt (n : Reg) : FixedBits.Statement (.movt n) := by
  simp only [Statement, encodeWord, fixedDigits, fixedValue, code_and, and_zero_digit, and_full_digit]
theorem FixedBits.swapB (m : Reg) (n : Reg) : FixedBits.Statement (.swapB m n) := by
  simp only [Statement, encodeWord, fixedDigits, fixedValue, code_and, and_zero_digit, and_full_digit]
theorem FixedBits.swapW (m : Reg) (n : Reg) : FixedBits.Statement (.swapW m n) := by
  simp only [Statement, encodeWord, fixedDigits, fixedValue, code_and, and_zero_digit, and_full_digit]
theorem FixedBits.xtrct (m : Reg) (n : Reg) : FixedBits.Statement (.xtrct m n) := by
  simp only [Statement, encodeWord, fixedDigits, fixedValue, code_and, and_zero_digit, and_full_digit]
theorem FixedBits.add (m : Reg) (n : Reg) : FixedBits.Statement (.add m n) := by
  simp only [Statement, encodeWord, fixedDigits, fixedValue, code_and, and_zero_digit, and_full_digit]
theorem FixedBits.addImm (imm : BitVec 8) (n : Reg) : FixedBits.Statement (.addImm imm n) := by
  simp only [Statement, encodeWord, fixedDigits, fixedValue, code_and, and_zero_digit, and_full_digit]
theorem FixedBits.addc (m : Reg) (n : Reg) : FixedBits.Statement (.addc m n) := by
  simp only [Statement, encodeWord, fixedDigits, fixedValue, code_and, and_zero_digit, and_full_digit]
theorem FixedBits.addv (m : Reg) (n : Reg) : FixedBits.Statement (.addv m n) := by
  simp only [Statement, encodeWord, fixedDigits, fixedValue, code_and, and_zero_digit, and_full_digit]
theorem FixedBits.cmpEqImm (imm : BitVec 8) : FixedBits.Statement (.cmpEqImm imm) := by
  simp only [Statement, encodeWord, fixedDigits, fixedValue, code_and, and_zero_digit, and_full_digit]
theorem FixedBits.cmpEq (m : Reg) (n : Reg) : FixedBits.Statement (.cmpEq m n) := by
  simp only [Statement, encodeWord, fixedDigits, fixedValue, code_and, and_zero_digit, and_full_digit]
theorem FixedBits.cmpHs (m : Reg) (n : Reg) : FixedBits.Statement (.cmpHs m n) := by
  simp only [Statement, encodeWord, fixedDigits, fixedValue, code_and, and_zero_digit, and_full_digit]
theorem FixedBits.cmpGe (m : Reg) (n : Reg) : FixedBits.Statement (.cmpGe m n) := by
  simp only [Statement, encodeWord, fixedDigits, fixedValue, code_and, and_zero_digit, and_full_digit]
theorem FixedBits.cmpHi (m : Reg) (n : Reg) : FixedBits.Statement (.cmpHi m n) := by
  simp only [Statement, encodeWord, fixedDigits, fixedValue, code_and, and_zero_digit, and_full_digit]
theorem FixedBits.cmpGt (m : Reg) (n : Reg) : FixedBits.Statement (.cmpGt m n) := by
  simp only [Statement, encodeWord, fixedDigits, fixedValue, code_and, and_zero_digit, and_full_digit]
theorem FixedBits.cmpPl (n : Reg) : FixedBits.Statement (.cmpPl n) := by
  simp only [Statement, encodeWord, fixedDigits, fixedValue, code_and, and_zero_digit, and_full_digit]
theorem FixedBits.cmpPz (n : Reg) : FixedBits.Statement (.cmpPz n) := by
  simp only [Statement, encodeWord, fixedDigits, fixedValue, code_and, and_zero_digit, and_full_digit]
theorem FixedBits.cmpStr (m : Reg) (n : Reg) : FixedBits.Statement (.cmpStr m n) := by
  simp only [Statement, encodeWord, fixedDigits, fixedValue, code_and, and_zero_digit, and_full_digit]
theorem FixedBits.div1 (m : Reg) (n : Reg) : FixedBits.Statement (.div1 m n) := by
  simp only [Statement, encodeWord, fixedDigits, fixedValue, code_and, and_zero_digit, and_full_digit]
theorem FixedBits.div0s (m : Reg) (n : Reg) : FixedBits.Statement (.div0s m n) := by
  simp only [Statement, encodeWord, fixedDigits, fixedValue, code_and, and_zero_digit, and_full_digit]
theorem FixedBits.div0u : FixedBits.Statement (.div0u) := by
  simp only [Statement, encodeWord, fixedDigits, fixedValue, code_and, and_zero_digit, and_full_digit]
theorem FixedBits.dmulsL (m : Reg) (n : Reg) : FixedBits.Statement (.dmulsL m n) := by
  simp only [Statement, encodeWord, fixedDigits, fixedValue, code_and, and_zero_digit, and_full_digit]
theorem FixedBits.dmuluL (m : Reg) (n : Reg) : FixedBits.Statement (.dmuluL m n) := by
  simp only [Statement, encodeWord, fixedDigits, fixedValue, code_and, and_zero_digit, and_full_digit]
theorem FixedBits.dt (n : Reg) : FixedBits.Statement (.dt n) := by
  simp only [Statement, encodeWord, fixedDigits, fixedValue, code_and, and_zero_digit, and_full_digit]
theorem FixedBits.extsB (m : Reg) (n : Reg) : FixedBits.Statement (.extsB m n) := by
  simp only [Statement, encodeWord, fixedDigits, fixedValue, code_and, and_zero_digit, and_full_digit]
theorem FixedBits.extsW (m : Reg) (n : Reg) : FixedBits.Statement (.extsW m n) := by
  simp only [Statement, encodeWord, fixedDigits, fixedValue, code_and, and_zero_digit, and_full_digit]
theorem FixedBits.extuB (m : Reg) (n : Reg) : FixedBits.Statement (.extuB m n) := by
  simp only [Statement, encodeWord, fixedDigits, fixedValue, code_and, and_zero_digit, and_full_digit]
theorem FixedBits.extuW (m : Reg) (n : Reg) : FixedBits.Statement (.extuW m n) := by
  simp only [Statement, encodeWord, fixedDigits, fixedValue, code_and, and_zero_digit, and_full_digit]
theorem FixedBits.macL (m : Reg) (n : Reg) : FixedBits.Statement (.macL m n) := by
  simp only [Statement, encodeWord, fixedDigits, fixedValue, code_and, and_zero_digit, and_full_digit]
theorem FixedBits.macW (m : Reg) (n : Reg) : FixedBits.Statement (.macW m n) := by
  simp only [Statement, encodeWord, fixedDigits, fixedValue, code_and, and_zero_digit, and_full_digit]
theorem FixedBits.mulL (m : Reg) (n : Reg) : FixedBits.Statement (.mulL m n) := by
  simp only [Statement, encodeWord, fixedDigits, fixedValue, code_and, and_zero_digit, and_full_digit]
theorem FixedBits.mulsW (m : Reg) (n : Reg) : FixedBits.Statement (.mulsW m n) := by
  simp only [Statement, encodeWord, fixedDigits, fixedValue, code_and, and_zero_digit, and_full_digit]
theorem FixedBits.muluW (m : Reg) (n : Reg) : FixedBits.Statement (.muluW m n) := by
  simp only [Statement, encodeWord, fixedDigits, fixedValue, code_and, and_zero_digit, and_full_digit]
theorem FixedBits.neg (m : Reg) (n : Reg) : FixedBits.Statement (.neg m n) := by
  simp only [Statement, encodeWord, fixedDigits, fixedValue, code_and, and_zero_digit, and_full_digit]
theorem FixedBits.negc (m : Reg) (n : Reg) : FixedBits.Statement (.negc m n) := by
  simp only [Statement, encodeWord, fixedDigits, fixedValue, code_and, and_zero_digit, and_full_digit]
theorem FixedBits.sub (m : Reg) (n : Reg) : FixedBits.Statement (.sub m n) := by
  simp only [Statement, encodeWord, fixedDigits, fixedValue, code_and, and_zero_digit, and_full_digit]
theorem FixedBits.subc (m : Reg) (n : Reg) : FixedBits.Statement (.subc m n) := by
  simp only [Statement, encodeWord, fixedDigits, fixedValue, code_and, and_zero_digit, and_full_digit]
theorem FixedBits.subv (m : Reg) (n : Reg) : FixedBits.Statement (.subv m n) := by
  simp only [Statement, encodeWord, fixedDigits, fixedValue, code_and, and_zero_digit, and_full_digit]
theorem FixedBits.and (m : Reg) (n : Reg) : FixedBits.Statement (.and m n) := by
  simp only [Statement, encodeWord, fixedDigits, fixedValue, code_and, and_zero_digit, and_full_digit]
theorem FixedBits.andImm (imm : BitVec 8) : FixedBits.Statement (.andImm imm) := by
  simp only [Statement, encodeWord, fixedDigits, fixedValue, code_and, and_zero_digit, and_full_digit]
theorem FixedBits.andB (imm : BitVec 8) : FixedBits.Statement (.andB imm) := by
  simp only [Statement, encodeWord, fixedDigits, fixedValue, code_and, and_zero_digit, and_full_digit]
theorem FixedBits.not (m : Reg) (n : Reg) : FixedBits.Statement (.not m n) := by
  simp only [Statement, encodeWord, fixedDigits, fixedValue, code_and, and_zero_digit, and_full_digit]
theorem FixedBits.or (m : Reg) (n : Reg) : FixedBits.Statement (.or m n) := by
  simp only [Statement, encodeWord, fixedDigits, fixedValue, code_and, and_zero_digit, and_full_digit]
theorem FixedBits.orImm (imm : BitVec 8) : FixedBits.Statement (.orImm imm) := by
  simp only [Statement, encodeWord, fixedDigits, fixedValue, code_and, and_zero_digit, and_full_digit]
theorem FixedBits.orB (imm : BitVec 8) : FixedBits.Statement (.orB imm) := by
  simp only [Statement, encodeWord, fixedDigits, fixedValue, code_and, and_zero_digit, and_full_digit]
theorem FixedBits.tasB (n : Reg) : FixedBits.Statement (.tasB n) := by
  simp only [Statement, encodeWord, fixedDigits, fixedValue, code_and, and_zero_digit, and_full_digit]
theorem FixedBits.tst (m : Reg) (n : Reg) : FixedBits.Statement (.tst m n) := by
  simp only [Statement, encodeWord, fixedDigits, fixedValue, code_and, and_zero_digit, and_full_digit]
theorem FixedBits.tstImm (imm : BitVec 8) : FixedBits.Statement (.tstImm imm) := by
  simp only [Statement, encodeWord, fixedDigits, fixedValue, code_and, and_zero_digit, and_full_digit]
theorem FixedBits.tstB (imm : BitVec 8) : FixedBits.Statement (.tstB imm) := by
  simp only [Statement, encodeWord, fixedDigits, fixedValue, code_and, and_zero_digit, and_full_digit]
theorem FixedBits.xor (m : Reg) (n : Reg) : FixedBits.Statement (.xor m n) := by
  simp only [Statement, encodeWord, fixedDigits, fixedValue, code_and, and_zero_digit, and_full_digit]
theorem FixedBits.xorImm (imm : BitVec 8) : FixedBits.Statement (.xorImm imm) := by
  simp only [Statement, encodeWord, fixedDigits, fixedValue, code_and, and_zero_digit, and_full_digit]
theorem FixedBits.xorB (imm : BitVec 8) : FixedBits.Statement (.xorB imm) := by
  simp only [Statement, encodeWord, fixedDigits, fixedValue, code_and, and_zero_digit, and_full_digit]
theorem FixedBits.rotl (n : Reg) : FixedBits.Statement (.rotl n) := by
  simp only [Statement, encodeWord, fixedDigits, fixedValue, code_and, and_zero_digit, and_full_digit]
theorem FixedBits.rotr (n : Reg) : FixedBits.Statement (.rotr n) := by
  simp only [Statement, encodeWord, fixedDigits, fixedValue, code_and, and_zero_digit, and_full_digit]
theorem FixedBits.rotcl (n : Reg) : FixedBits.Statement (.rotcl n) := by
  simp only [Statement, encodeWord, fixedDigits, fixedValue, code_and, and_zero_digit, and_full_digit]
theorem FixedBits.rotcr (n : Reg) : FixedBits.Statement (.rotcr n) := by
  simp only [Statement, encodeWord, fixedDigits, fixedValue, code_and, and_zero_digit, and_full_digit]
theorem FixedBits.shal (n : Reg) : FixedBits.Statement (.shal n) := by
  simp only [Statement, encodeWord, fixedDigits, fixedValue, code_and, and_zero_digit, and_full_digit]
theorem FixedBits.shar (n : Reg) : FixedBits.Statement (.shar n) := by
  simp only [Statement, encodeWord, fixedDigits, fixedValue, code_and, and_zero_digit, and_full_digit]
theorem FixedBits.shll (n : Reg) : FixedBits.Statement (.shll n) := by
  simp only [Statement, encodeWord, fixedDigits, fixedValue, code_and, and_zero_digit, and_full_digit]
theorem FixedBits.shlr (n : Reg) : FixedBits.Statement (.shlr n) := by
  simp only [Statement, encodeWord, fixedDigits, fixedValue, code_and, and_zero_digit, and_full_digit]
theorem FixedBits.shll2 (n : Reg) : FixedBits.Statement (.shll2 n) := by
  simp only [Statement, encodeWord, fixedDigits, fixedValue, code_and, and_zero_digit, and_full_digit]
theorem FixedBits.shlr2 (n : Reg) : FixedBits.Statement (.shlr2 n) := by
  simp only [Statement, encodeWord, fixedDigits, fixedValue, code_and, and_zero_digit, and_full_digit]
theorem FixedBits.shll8 (n : Reg) : FixedBits.Statement (.shll8 n) := by
  simp only [Statement, encodeWord, fixedDigits, fixedValue, code_and, and_zero_digit, and_full_digit]
theorem FixedBits.shlr8 (n : Reg) : FixedBits.Statement (.shlr8 n) := by
  simp only [Statement, encodeWord, fixedDigits, fixedValue, code_and, and_zero_digit, and_full_digit]
theorem FixedBits.shll16 (n : Reg) : FixedBits.Statement (.shll16 n) := by
  simp only [Statement, encodeWord, fixedDigits, fixedValue, code_and, and_zero_digit, and_full_digit]
theorem FixedBits.shlr16 (n : Reg) : FixedBits.Statement (.shlr16 n) := by
  simp only [Statement, encodeWord, fixedDigits, fixedValue, code_and, and_zero_digit, and_full_digit]
theorem FixedBits.bf (disp : BitVec 8) : FixedBits.Statement (.bf disp) := by
  simp only [Statement, encodeWord, fixedDigits, fixedValue, code_and, and_zero_digit, and_full_digit]
theorem FixedBits.bfS (disp : BitVec 8) : FixedBits.Statement (.bfS disp) := by
  simp only [Statement, encodeWord, fixedDigits, fixedValue, code_and, and_zero_digit, and_full_digit]
theorem FixedBits.bt (disp : BitVec 8) : FixedBits.Statement (.bt disp) := by
  simp only [Statement, encodeWord, fixedDigits, fixedValue, code_and, and_zero_digit, and_full_digit]
theorem FixedBits.btS (disp : BitVec 8) : FixedBits.Statement (.btS disp) := by
  simp only [Statement, encodeWord, fixedDigits, fixedValue, code_and, and_zero_digit, and_full_digit]
theorem FixedBits.bra (disp : BitVec 12) : FixedBits.Statement (.bra disp) := by
  simp only [Statement, encodeWord, fixedDigits, fixedValue, code_and, and_zero_digit, and_full_digit]
theorem FixedBits.braf (m : Reg) : FixedBits.Statement (.braf m) := by
  simp only [Statement, encodeWord, fixedDigits, fixedValue, code_and, and_zero_digit, and_full_digit]
theorem FixedBits.bsr (disp : BitVec 12) : FixedBits.Statement (.bsr disp) := by
  simp only [Statement, encodeWord, fixedDigits, fixedValue, code_and, and_zero_digit, and_full_digit]
theorem FixedBits.bsrf (m : Reg) : FixedBits.Statement (.bsrf m) := by
  simp only [Statement, encodeWord, fixedDigits, fixedValue, code_and, and_zero_digit, and_full_digit]
theorem FixedBits.jmp (m : Reg) : FixedBits.Statement (.jmp m) := by
  simp only [Statement, encodeWord, fixedDigits, fixedValue, code_and, and_zero_digit, and_full_digit]
theorem FixedBits.jsr (m : Reg) : FixedBits.Statement (.jsr m) := by
  simp only [Statement, encodeWord, fixedDigits, fixedValue, code_and, and_zero_digit, and_full_digit]
theorem FixedBits.rts : FixedBits.Statement (.rts) := by
  simp only [Statement, encodeWord, fixedDigits, fixedValue, code_and, and_zero_digit, and_full_digit]
theorem FixedBits.clrt : FixedBits.Statement (.clrt) := by
  simp only [Statement, encodeWord, fixedDigits, fixedValue, code_and, and_zero_digit, and_full_digit]
theorem FixedBits.clrmac : FixedBits.Statement (.clrmac) := by
  simp only [Statement, encodeWord, fixedDigits, fixedValue, code_and, and_zero_digit, and_full_digit]
theorem FixedBits.ldcSr (m : Reg) : FixedBits.Statement (.ldcSr m) := by
  simp only [Statement, encodeWord, fixedDigits, fixedValue, code_and, and_zero_digit, and_full_digit]
theorem FixedBits.ldcGbr (m : Reg) : FixedBits.Statement (.ldcGbr m) := by
  simp only [Statement, encodeWord, fixedDigits, fixedValue, code_and, and_zero_digit, and_full_digit]
theorem FixedBits.ldcVbr (m : Reg) : FixedBits.Statement (.ldcVbr m) := by
  simp only [Statement, encodeWord, fixedDigits, fixedValue, code_and, and_zero_digit, and_full_digit]
theorem FixedBits.ldcLSr (m : Reg) : FixedBits.Statement (.ldcLSr m) := by
  simp only [Statement, encodeWord, fixedDigits, fixedValue, code_and, and_zero_digit, and_full_digit]
theorem FixedBits.ldcLGbr (m : Reg) : FixedBits.Statement (.ldcLGbr m) := by
  simp only [Statement, encodeWord, fixedDigits, fixedValue, code_and, and_zero_digit, and_full_digit]
theorem FixedBits.ldcLVbr (m : Reg) : FixedBits.Statement (.ldcLVbr m) := by
  simp only [Statement, encodeWord, fixedDigits, fixedValue, code_and, and_zero_digit, and_full_digit]
theorem FixedBits.ldsMach (m : Reg) : FixedBits.Statement (.ldsMach m) := by
  simp only [Statement, encodeWord, fixedDigits, fixedValue, code_and, and_zero_digit, and_full_digit]
theorem FixedBits.ldsMacl (m : Reg) : FixedBits.Statement (.ldsMacl m) := by
  simp only [Statement, encodeWord, fixedDigits, fixedValue, code_and, and_zero_digit, and_full_digit]
theorem FixedBits.ldsPr (m : Reg) : FixedBits.Statement (.ldsPr m) := by
  simp only [Statement, encodeWord, fixedDigits, fixedValue, code_and, and_zero_digit, and_full_digit]
theorem FixedBits.ldsLMach (m : Reg) : FixedBits.Statement (.ldsLMach m) := by
  simp only [Statement, encodeWord, fixedDigits, fixedValue, code_and, and_zero_digit, and_full_digit]
theorem FixedBits.ldsLMacl (m : Reg) : FixedBits.Statement (.ldsLMacl m) := by
  simp only [Statement, encodeWord, fixedDigits, fixedValue, code_and, and_zero_digit, and_full_digit]
theorem FixedBits.ldsLPr (m : Reg) : FixedBits.Statement (.ldsLPr m) := by
  simp only [Statement, encodeWord, fixedDigits, fixedValue, code_and, and_zero_digit, and_full_digit]
theorem FixedBits.nop : FixedBits.Statement (.nop) := by
  simp only [Statement, encodeWord, fixedDigits, fixedValue, code_and, and_zero_digit, and_full_digit]
theorem FixedBits.rte : FixedBits.Statement (.rte) := by
  simp only [Statement, encodeWord, fixedDigits, fixedValue, code_and, and_zero_digit, and_full_digit]
theorem FixedBits.sett : FixedBits.Statement (.sett) := by
  simp only [Statement, encodeWord, fixedDigits, fixedValue, code_and, and_zero_digit, and_full_digit]
theorem FixedBits.sleep : FixedBits.Statement (.sleep) := by
  simp only [Statement, encodeWord, fixedDigits, fixedValue, code_and, and_zero_digit, and_full_digit]
theorem FixedBits.stcSr (n : Reg) : FixedBits.Statement (.stcSr n) := by
  simp only [Statement, encodeWord, fixedDigits, fixedValue, code_and, and_zero_digit, and_full_digit]
theorem FixedBits.stcGbr (n : Reg) : FixedBits.Statement (.stcGbr n) := by
  simp only [Statement, encodeWord, fixedDigits, fixedValue, code_and, and_zero_digit, and_full_digit]
theorem FixedBits.stcVbr (n : Reg) : FixedBits.Statement (.stcVbr n) := by
  simp only [Statement, encodeWord, fixedDigits, fixedValue, code_and, and_zero_digit, and_full_digit]
theorem FixedBits.stcLSr (n : Reg) : FixedBits.Statement (.stcLSr n) := by
  simp only [Statement, encodeWord, fixedDigits, fixedValue, code_and, and_zero_digit, and_full_digit]
theorem FixedBits.stcLGbr (n : Reg) : FixedBits.Statement (.stcLGbr n) := by
  simp only [Statement, encodeWord, fixedDigits, fixedValue, code_and, and_zero_digit, and_full_digit]
theorem FixedBits.stcLVbr (n : Reg) : FixedBits.Statement (.stcLVbr n) := by
  simp only [Statement, encodeWord, fixedDigits, fixedValue, code_and, and_zero_digit, and_full_digit]
theorem FixedBits.stsMach (n : Reg) : FixedBits.Statement (.stsMach n) := by
  simp only [Statement, encodeWord, fixedDigits, fixedValue, code_and, and_zero_digit, and_full_digit]
theorem FixedBits.stsMacl (n : Reg) : FixedBits.Statement (.stsMacl n) := by
  simp only [Statement, encodeWord, fixedDigits, fixedValue, code_and, and_zero_digit, and_full_digit]
theorem FixedBits.stsPr (n : Reg) : FixedBits.Statement (.stsPr n) := by
  simp only [Statement, encodeWord, fixedDigits, fixedValue, code_and, and_zero_digit, and_full_digit]
theorem FixedBits.stsLMach (n : Reg) : FixedBits.Statement (.stsLMach n) := by
  simp only [Statement, encodeWord, fixedDigits, fixedValue, code_and, and_zero_digit, and_full_digit]
theorem FixedBits.stsLMacl (n : Reg) : FixedBits.Statement (.stsLMacl n) := by
  simp only [Statement, encodeWord, fixedDigits, fixedValue, code_and, and_zero_digit, and_full_digit]
theorem FixedBits.stsLPr (n : Reg) : FixedBits.Statement (.stsLPr n) := by
  simp only [Statement, encodeWord, fixedDigits, fixedValue, code_and, and_zero_digit, and_full_digit]
theorem FixedBits.trapa (imm : BitVec 8) : FixedBits.Statement (.trapa imm) := by
  simp only [Statement, encodeWord, fixedDigits, fixedValue, code_and, and_zero_digit, and_full_digit]

end Sys2Proof.Laws
end

