-- ==== Sys2Proof/Laws/Step.lean ====
section
/-! SUPPORT. What a step can do, said once: which of its four courses it takes, and what each of the shared operations
behind them answers. -/
set_option Elab.async false
namespace Sys2Proof.Machine

/-- The record of stores at the end of an instruction that stands in no slot. -/
theorem State.storesAfterAdvance_none {s : State} (h : s.delayTarget = none) :
    s.storesAfterAdvance = s.recentStores := by
  simp [State.storesAfterAdvance, h]

/-- At the end of the slot of a branch that was taken every store is seen (R66). -/
theorem State.storesAfterAdvance_taken {s : State} {d : Word} (h : s.delayTarget = some d)
    (hu : s.slotAfterUntaken = false) : s.storesAfterAdvance = [] := by
  simp [State.storesAfterAdvance, h, hu]

/-- Behind a BF/S or BT/S that did not branch the record stays. -/
theorem State.storesAfterAdvance_untaken {s : State} (hu : s.slotAfterUntaken = true) :
    s.storesAfterAdvance = s.recentStores := by
  simp only [State.storesAfterAdvance, hu]
  split <;> simp_all

/-- A request is accepted at a running boundary exactly when it is the best one and the schedule says so or a wait is
over (R375). -/
theorem State.acceptedNow_some {s : State} {q : IntRequest} :
    s.acceptedNow = some q ↔ s.bestRequest = some q ∧
      (Config.acceptHere s.acceptedCount s.passedCount = true ∨ s.acceptanceDue = true) := by
  unfold State.acceptedNow
  cases s.bestRequest with
  | none => simp
  | some r => simp [and_comm]

/-- A wait is over exactly when some acceptable request has waited long enough. -/
theorem State.acceptanceDue_iff {s : State} :
    s.acceptanceDue = true ↔
      ∃ q ∈ s.pending, s.acceptable q = true ∧ Config.acceptDelay s.acceptedCount ≤ waitOf s.waits q := by
  simp [State.acceptanceDue, State.acceptableRequests]

/-- A reset answers a state exactly when PC and R15 can be had, and then the state is this one. -/
theorem State.takeReset_next {s t : State} {k : ResetKind} :
    s.takeReset k = .next t ↔ ∃ pc sp, s.resetValues k = some (pc, sp) ∧
      t = { State.reset.setReg 15 sp with
        pc := pc
        mem := s.mem
        pending := s.pending
        lastAccepted := s.lastAccepted
        acceptedCount := s.acceptedCount
        passedCount := s.passedCount
        waits := s.waits
        cfg := s.cfg } := by
  unfold State.takeReset
  cases s.resetValues k with
  | none => simp
  | some v => exact ⟨fun h => ⟨v.1, v.2, rfl, by injection h with h; exact h.symm⟩,
      fun ⟨_, _, h, e⟩ => by cases h; rw [e]⟩

/-- Executing at the pc answers a state in one of three ways: the address error of the fetch, the instruction that the
code stands for, or the illegal instruction exception. -/
theorem instructionStep_next {s t : State} :
    instructionStep s = .next t ↔
      (s.fetch = .addressError ∧ s.fetchErrorException = .next t) ∨
      (∃ w i, s.fetch = .code w ∧ decodeWord s.cfg.cpu w = .ok i ∧ exec i s.ageStores = .next t) ∨
      (∃ w e, s.fetch = .code w ∧ decodeWord s.cfg.cpu w = .error e ∧ s.ageStores.illegalInstruction = .next t) := by
  unfold instructionStep
  cases s.fetch with
  | addressError => simp
  | fault f => simp
  | refused r => simp
  | code w => cases h : decodeWord s.cfg.cpu w <;> simp [h]

/-- A step answers a state in one of four ways: a reset is taken, the CPU sleeps, an interrupt is accepted, or the boundary
is passed over and an instruction executed. -/
theorem step_next {s t : State} :
    step s = .next t ↔
      (∃ k, s.resetRequest = some k ∧ s.takeReset k = .next t) ∨
      (s.resetRequest = none ∧ s.power = .sleep ∧ s.sleepStep = .next t) ∨
      (s.resetRequest = none ∧ s.power = .run ∧ ∃ q, s.acceptedNow = some q ∧ s.acceptInterrupt q = .next t) ∨
      (s.resetRequest = none ∧ s.power = .run ∧ s.acceptedNow = none ∧ instructionStep s.passBoundary = .next t) := by
  unfold step
  cases s.resetRequest with
  | some k => simp
  | none =>
    cases s.power with
    | sleep => simp
    | run => cases s.acceptedNow <;> simp

end Sys2Proof.Machine
end

