-- ==== Sys2Proof/Tests/Slice0.lean ====
section
/-! SUPPORT. Tests.  The words of the decode tests are written out from the encodings of spec/30_encoding.md, the values
of the execution tests are those of spec/95_test_vectors.md to spec/97_test_vectors_3.md or worked out by hand from the
rule named; the witnesses show that the hypotheses of the statements can be met together. -/
set_option Elab.async false
namespace Sys2Proof.Tests
open Sys2Proof Sys2Proof.Machine

/-! ### Well-formedness: the SH-1 refuses the nine instructions that only the SH-2 has (R108) -/

theorem test_illFormed_dmulsL : (Instr.dmulsL 3 3).wellFormed .sh1 = false := by decide
theorem test_illFormed_dmuluL : (Instr.dmuluL 3 3).wellFormed .sh1 = false := by decide
theorem test_illFormed_dt : (Instr.dt 3).wellFormed .sh1 = false := by decide
theorem test_illFormed_macL : (Instr.macL 3 3).wellFormed .sh1 = false := by decide
theorem test_illFormed_mulL : (Instr.mulL 3 3).wellFormed .sh1 = false := by decide
theorem test_illFormed_bfS : (Instr.bfS 0x5).wellFormed .sh1 = false := by decide
theorem test_illFormed_btS : (Instr.btS 0x5).wellFormed .sh1 = false := by decide
theorem test_illFormed_braf : (Instr.braf 3).wellFormed .sh1 = false := by decide
theorem test_illFormed_bsrf : (Instr.bsrf 3).wellFormed .sh1 = false := by decide

theorem test_wellFormed_on_both : (Instr.mov 15 0).wellFormed .sh1 = true ∧ (Instr.dt 15).wellFormed .sh2 = true := by decide

/-! ### Decoding: one code of every instruction, its digits written out from the tables (R105 to R107) -/

/-- The code of four digits decodes to the instruction on the SH-2. -/
def reads (w : Half) (i : Instr) : Bool :=
  match decodeWord .sh2 w with
  | .ok j => decide (j = i)
  | .error _ => false

theorem test_decode_dataTransfer_a :
    reads 0b1110011010011010 (.movImm 0x9A 6) = true ∧
    reads 0b1001011010000101 (.movWPc 0x85 6) = true ∧
    reads 0b1101011011000011 (.movLPc 0xC3 6) = true ∧
    reads 0b0110011011010011 (.mov 13 6) = true ∧
    reads 0b0010011011010000 (.movBStore 13 6) = true ∧
    reads 0b0010011011010001 (.movWStore 13 6) = true ∧
    reads 0b0010011011010010 (.movLStore 13 6) = true ∧
    reads 0b0110011011010000 (.movBLoad 13 6) = true ∧
    reads 0b0110011011010001 (.movWLoad 13 6) = true ∧
    reads 0b0110011011010010 (.movLLoad 13 6) = true ∧
    reads 0b0010011011010100 (.movBStoreDec 13 6) = true ∧
    reads 0b0010011011010101 (.movWStoreDec 13 6) = true ∧
    reads 0b0010011011010110 (.movLStoreDec 13 6) = true ∧
    reads 0b0110011011010100 (.movBLoadInc 13 6) = true := by decide +kernel

theorem test_decode_dataTransfer_b :
    reads 0b0110011011010101 (.movWLoadInc 13 6) = true ∧
    reads 0b0110011011010110 (.movLLoadInc 13 6) = true ∧
    reads 0b1000000001101011 (.movBStoreDisp 0xB 6) = true ∧
    reads 0b1000000101101011 (.movWStoreDisp 0xB 6) = true ∧
    reads 0b0001011011011011 (.movLStoreDisp 13 0xB 6) = true ∧
    reads 0b1000010011011011 (.movBLoadDisp 0xB 13) = true ∧
    reads 0b1000010111011011 (.movWLoadDisp 0xB 13) = true ∧
    reads 0b0101011011011011 (.movLLoadDisp 0xB 13 6) = true ∧
    reads 0b0000011011010100 (.movBStoreIdx 13 6) = true ∧
    reads 0b0000011011010101 (.movWStoreIdx 13 6) = true ∧
    reads 0b0000011011010110 (.movLStoreIdx 13 6) = true ∧
    reads 0b0000011011011100 (.movBLoadIdx 13 6) = true ∧
    reads 0b0000011011011101 (.movWLoadIdx 13 6) = true ∧
    reads 0b0000011011011110 (.movLLoadIdx 13 6) = true := by decide +kernel

theorem test_decode_dataTransfer_c :
    reads 0b1100000010011010 (.movBStoreGbr 0x9A) = true ∧
    reads 0b1100000110000101 (.movWStoreGbr 0x85) = true ∧
    reads 0b1100001011000011 (.movLStoreGbr 0xC3) = true ∧
    reads 0b1100010001111110 (.movBLoadGbr 0x7E) = true ∧
    reads 0b1100010111110001 (.movWLoadGbr 0xF1) = true ∧
    reads 0b1100011010011010 (.movLLoadGbr 0x9A) = true ∧
    reads 0b1100011110000101 (.mova 0x85) = true ∧
    reads 0b0000011000101001 (.movt 6) = true ∧
    reads 0b0110011011011000 (.swapB 13 6) = true ∧
    reads 0b0110011011011001 (.swapW 13 6) = true ∧
    reads 0b0010011011011101 (.xtrct 13 6) = true := by decide +kernel

theorem test_decode_arithmetic_a :
    reads 0b0011011011011100 (.add 13 6) = true ∧
    reads 0b0111011010000101 (.addImm 0x85 6) = true ∧
    reads 0b0011011011011110 (.addc 13 6) = true ∧
    reads 0b0011011011011111 (.addv 13 6) = true ∧
    reads 0b1000100011110001 (.cmpEqImm 0xF1) = true ∧
    reads 0b0011011011010000 (.cmpEq 13 6) = true ∧
    reads 0b0011011011010010 (.cmpHs 13 6) = true ∧
    reads 0b0011011011010011 (.cmpGe 13 6) = true ∧
    reads 0b0011011011010110 (.cmpHi 13 6) = true ∧
    reads 0b0011011011010111 (.cmpGt 13 6) = true ∧
    reads 0b0100011000010101 (.cmpPl 6) = true ∧
    reads 0b0100011000010001 (.cmpPz 6) = true ∧
    reads 0b0010011011011100 (.cmpStr 13 6) = true ∧
    reads 0b0011011011010100 (.div1 13 6) = true := by decide +kernel

theorem test_decode_arithmetic_b :
    reads 0b0010011011010111 (.div0s 13 6) = true ∧
    reads 0b0000000000011001 .div0u = true ∧
    reads 0b0100011000010000 (.dt 6) = true ∧
    reads 0b0110011011011110 (.extsB 13 6) = true ∧
    reads 0b0110011011011111 (.extsW 13 6) = true ∧
    reads 0b0110011011011100 (.extuB 13 6) = true ∧
    reads 0b0110011011011101 (.extuW 13 6) = true ∧
    reads 0b0110011011011011 (.neg 13 6) = true ∧
    reads 0b0110011011011010 (.negc 13 6) = true ∧
    reads 0b0011011011011000 (.sub 13 6) = true ∧
    reads 0b0011011011011010 (.subc 13 6) = true ∧
    reads 0b0011011011011011 (.subv 13 6) = true := by decide +kernel

theorem test_decode_multiply :
    reads 0b0011011011011101 (.dmulsL 13 6) = true ∧
    reads 0b0011011011010101 (.dmuluL 13 6) = true ∧
    reads 0b0000011011011111 (.macL 13 6) = true ∧
    reads 0b0100011011011111 (.macW 13 6) = true ∧
    reads 0b0000011011010111 (.mulL 13 6) = true ∧
    reads 0b0010011011011111 (.mulsW 13 6) = true ∧
    reads 0b0010011011011110 (.muluW 13 6) = true := by decide +kernel

theorem test_decode_logic :
    reads 0b0010011011011001 (.and 13 6) = true ∧
    reads 0b1100100110000101 (.andImm 0x85) = true ∧
    reads 0b1100110111000011 (.andB 0xC3) = true ∧
    reads 0b0110011011010111 (.not 13 6) = true ∧
    reads 0b0010011011011011 (.or 13 6) = true ∧
    reads 0b1100101110011010 (.orImm 0x9A) = true ∧
    reads 0b1100111110000101 (.orB 0x85) = true ∧
    reads 0b0100011000011011 (.tasB 6) = true ∧
    reads 0b0010011011011000 (.tst 13 6) = true ∧
    reads 0b1100100011110001 (.tstImm 0xF1) = true ∧
    reads 0b1100110010011010 (.tstB 0x9A) = true ∧
    reads 0b0010011011011010 (.xor 13 6) = true ∧
    reads 0b1100101011000011 (.xorImm 0xC3) = true ∧
    reads 0b1100111001111110 (.xorB 0x7E) = true := by decide +kernel

theorem test_decode_shift :
    reads 0b0100011000000100 (.rotl 6) = true ∧
    reads 0b0100011000000101 (.rotr 6) = true ∧
    reads 0b0100011000100100 (.rotcl 6) = true ∧
    reads 0b0100011000100101 (.rotcr 6) = true ∧
    reads 0b0100011000100000 (.shal 6) = true ∧
    reads 0b0100011000100001 (.shar 6) = true ∧
    reads 0b0100011000000000 (.shll 6) = true ∧
    reads 0b0100011000000001 (.shlr 6) = true ∧
    reads 0b0100011000001000 (.shll2 6) = true ∧
    reads 0b0100011000001001 (.shlr2 6) = true ∧
    reads 0b0100011000011000 (.shll8 6) = true ∧
    reads 0b0100011000011001 (.shlr8 6) = true ∧
    reads 0b0100011000101000 (.shll16 6) = true ∧
    reads 0b0100011000101001 (.shlr16 6) = true := by decide +kernel

theorem test_decode_branch :
    reads 0b1000101110011010 (.bf 0x9A) = true ∧
    reads 0b1000111110000101 (.bfS 0x85) = true ∧
    reads 0b1000100111000011 (.bt 0xC3) = true ∧
    reads 0b1000110101111110 (.btS 0x7E) = true ∧
    reads 0b1010100110100101 (.bra 0x9A5) = true ∧
    reads 0b0000110100100011 (.braf 13) = true ∧
    reads 0b1011100110100101 (.bsr 0x9A5) = true ∧
    reads 0b0000110100000011 (.bsrf 13) = true ∧
    reads 0b0100110100101011 (.jmp 13) = true ∧
    reads 0b0100110100001011 (.jsr 13) = true ∧
    reads 0b0000000000001011 .rts = true := by decide +kernel

theorem test_decode_systemControl_a :
    reads 0b0000000000001000 .clrt = true ∧
    reads 0b0000000000101000 .clrmac = true ∧
    reads 0b0100110100001110 (.ldcSr 13) = true ∧
    reads 0b0100110100011110 (.ldcGbr 13) = true ∧
    reads 0b0100110100101110 (.ldcVbr 13) = true ∧
    reads 0b0100110100000111 (.ldcLSr 13) = true ∧
    reads 0b0100110100010111 (.ldcLGbr 13) = true ∧
    reads 0b0100110100100111 (.ldcLVbr 13) = true ∧
    reads 0b0100110100001010 (.ldsMach 13) = true ∧
    reads 0b0100110100011010 (.ldsMacl 13) = true ∧
    reads 0b0100110100101010 (.ldsPr 13) = true ∧
    reads 0b0100110100000110 (.ldsLMach 13) = true ∧
    reads 0b0100110100010110 (.ldsLMacl 13) = true ∧
    reads 0b0100110100100110 (.ldsLPr 13) = true := by decide +kernel

theorem test_decode_systemControl_b :
    reads 0b0000000000001001 .nop = true ∧
    reads 0b0000000000101011 .rte = true ∧
    reads 0b0000000000011000 .sett = true ∧
    reads 0b0000000000011011 .sleep = true ∧
    reads 0b0000011000000010 (.stcSr 6) = true ∧
    reads 0b0000011000010010 (.stcGbr 6) = true ∧
    reads 0b0000011000100010 (.stcVbr 6) = true ∧
    reads 0b0100011000000011 (.stcLSr 6) = true ∧
    reads 0b0100011000010011 (.stcLGbr 6) = true ∧
    reads 0b0100011000100011 (.stcLVbr 6) = true ∧
    reads 0b0000011000001010 (.stsMach 6) = true ∧
    reads 0b0000011000011010 (.stsMacl 6) = true ∧
    reads 0b0000011000101010 (.stsPr 6) = true ∧
    reads 0b0100011000000010 (.stsLMach 6) = true := by decide +kernel

theorem test_decode_systemControl_c :
    reads 0b0100011000010010 (.stsLMacl 6) = true ∧
    reads 0b0100011000100010 (.stsLPr 6) = true ∧
    reads 0b1100001111000011 (.trapa 0xC3) = true := by decide +kernel

/-- The bytes of a code lie in memory with the most significant first (R52). -/
theorem test_decode_bytes : decode .sh2 [0x61, 0x03, 0xFF] = .ok (.mov 0 1, [0xFF]) := rfl

/-- No bytes and one byte are no instruction. -/
theorem test_decode_short : decode .sh2 [] = .error .truncated ∧ decode .sh2 [0x00] = .error .truncated := ⟨rfl, rfl⟩

/-- Codes that spec/97_test_vectors_3.md, section 9.1, gives as unassigned. -/
theorem test_decode_unassigned :
    ([0x0000, 0x0001, 0x0032, 0x0013, 0x0108, 0x0038, 0x0109, 0x0119, 0x003A, 0x010B, 0x2123, 0x3121, 0x3129, 0x4130,
      0x4114, 0x410C, 0x413E, 0x8212, 0x8A00, 0x8E00, 0xF000, 0xFFFF] : List Half).all
      (fun w => match decodeWord .sh2 w with
        | .ok _ => false
        | .error e => decide (e = .unassigned w)) = true := by decide +kernel

/-- The codes of the nine SH-2 instructions are not the SH-1's (R108). -/
theorem test_decode_sh1 :
    ([0x0003, 0x0A23, 0x0127, 0x012F, 0x3105, 0x312D, 0x4110, 0x8D02, 0x8F02] : List Half).all
      (fun w => match decodeWord .sh1 w with
        | .ok _ => false
        | .error e => decide (e = .notOnThisCpu w)) = true := by decide +kernel

/-! ### Execution -/

/-- The start state of spec/95_test_vectors.md, section 0: SR is 0, the code stands at H'1000. -/
def start (code : Half) (regs : List (Reg × Word)) (longs : List (Word × Word) := []) : State :=
  let s := regs.foldl (fun s r => s.setReg r.1 r.2) { State.reset with pc := 0x1000, sr := 0 }
  { s with mem := longs.foldl (fun m p => m.setLong false p.1 p.2) (s.mem.setHalf false 0x1000 code) }

/-- The start state with T set. -/
def startT (code : Half) (regs : List (Reg × Word)) (longs : List (Word × Word) := []) : State :=
  { start code regs longs with sr := 1 }

/-- The same state on the SH-1. -/
def onSh1 (s : State) : State := { s with cfg := { s.cfg with cpu := .sh1 } }

/-- One step ends in a next state of which `p` holds. -/
def ran (s : State) (p : State → Bool) : Bool :=
  match step s with
  | .next t => p t
  | _ => false

theorem test_mov_same_register :
    ran (start 0x6553 [(5, 0x80000001)]) (fun t => t.reg 5 == 0x80000001 && t.pc == 0x1002) = true := by decide +kernel
theorem test_movImm_sign_extends :
    ran (start 0xEFFF []) (fun t => t.reg 15 == 0xFFFFFFFF) = true := by decide +kernel
theorem test_movBStore_one_byte_at_an_odd_address :
    ran (start 0x2210 [(1, 0x123456FF), (2, 0x2001)] [(0x2000, 0x11223344)]) (fun t => t.mem.long false 0x2000 == 0x11FF3344) = true := by decide +kernel
theorem test_movLStoreDec_wraps_to_the_top_of_memory :
    ran (start 0x2106 [(0, 1), (1, 0)]) (fun t => t.reg 1 == 0xFFFFFFFC && t.mem.long false 0xFFFFFFFC == 1) = true := by decide +kernel
theorem test_movWStoreDec_stores_the_old_value_of_the_same_register :
    ran (start 0x2115 [(1, 0xFFFF7F80)]) (fun t => t.reg 1 == 0xFFFF7F7E && t.mem.half false 0xFFFF7F7E == 0x7F80) = true := by decide +kernel
theorem test_movLLoadInc_same_register_keeps_the_loaded_value :
    ran (start 0x6446 [(4, 0x2000)] [(0x2000, 0x0000ABCD)]) (fun t => t.reg 4 == 0x0000ABCD) = true := by decide +kernel
theorem test_movLLoadInc_wraps_to_zero :
    ran (start 0x6016 [(1, 0xFFFFFFFC)] [(0xFFFFFFFC, 5)]) (fun t => t.reg 0 == 5 && t.reg 1 == 0) = true := by decide +kernel
theorem test_movBLoadIdx_sign_extends :
    ran (start 0x032C [(0, 4), (2, 0x2000)] [(0x2004, 0x9C000000)]) (fun t => t.reg 3 == 0xFFFFFF9C) = true := by decide +kernel
theorem test_movBStoreIdx_sum_wraps :
    ran (start 0x0234 [(0, 0xFFFFFFFF), (2, 0x2001), (3, 0xAB)]) (fun t => t.mem.byte 0x2000 == 0xAB) = true := by decide +kernel
theorem test_movWPc_does_not_mask_the_pc :
    ran ({ start 0 [] [(0x1000, 0x00009101), (0x1008, 0xFFFF0000)] with pc := 0x1002 }) (fun t => t.reg 1 == 0xFFFFFFFF) = true := by decide +kernel
theorem test_movLPc_masks_the_pc :
    ran ({ start 0 [] [(0x1000, 0x0000D100), (0x1004, 0x11112222)] with pc := 0x1002 }) (fun t => t.reg 1 == 0x11112222) = true := by decide +kernel
theorem test_movWPc_in_a_delay_slot :
    ran ({ start 0 [] [(0x1000, 0x00009102), (0x3004, 0x00008001)] with pc := 0x1002, delayTarget := some 0x3000 }) (fun t => t.reg 1 == 0xFFFF8001 && t.pc == 0x3000) = true := by decide +kernel
theorem test_mova_in_a_delay_slot :
    ran ({ start 0 [] [(0x1000, 0x0000C700)] with pc := 0x1002, delayTarget := some 0x3002 }) (fun t => t.reg 0 == 0x3004) = true := by decide +kernel
theorem test_movLLoadGbr_largest_displacement :
    ran ({ start 0xC6FF [] [(0x53FC, 0x01020304)] with gbr := 0x5000 }) (fun t => t.reg 0 == 0x01020304) = true := by decide +kernel
theorem test_movLLoadDisp_largest_displacement :
    ran (start 0x521F [(1, 0x2000)] [(0x203C, 0xFFFFFFFE)]) (fun t => t.reg 2 == 0xFFFFFFFE) = true := by decide +kernel
theorem test_movWStoreDisp_scales :
    ran (start 0x811F [(0, 0x7788), (1, 0x2000)]) (fun t => t.mem.half false 0x201E == 0x7788) = true := by decide +kernel
theorem test_movt :
    ran (startT 0x0729 [(7, 0xFFFFFFFF)]) (fun t => t.reg 7 == 1 && t.tBit) = true := by decide +kernel
theorem test_swapB :
    ran (start 0x6118 [(1, 0xAABBCCDD)]) (fun t => t.reg 1 == 0xAABBDDCC) = true := by decide +kernel
theorem test_swapW :
    ran (start 0x6119 [(1, 0xAABBCCDD)]) (fun t => t.reg 1 == 0xCCDDAABB) = true := by decide +kernel
theorem test_xtrct :
    ran (start 0x210D [(0, 0x01234567), (1, 0x89ABCDEF)]) (fun t => t.reg 1 == 0x456789AB) = true := by decide +kernel
theorem test_misaligned_load_changes_nothing :
    ran (start 0x6016 [(1, 0x2002), (0, 7), (15, 0x8000)] [(0x24, 0x6000)]) (fun t => t.reg 1 == 0x2002 && t.reg 0 == 7 && t.reg 15 == 0x7FF8 && t.pc == 0x6000 && t.mem.long false 0x7FF8 == 0x1002) = true := by decide +kernel

theorem test_add_leaves_t :
    ran (start 0x310C [(0, 0x7FFFFFFF), (1, 1)]) (fun t => t.reg 1 == 0x80000000 && !t.tBit) = true := by decide +kernel
theorem test_addImm_is_signed :
    ran (start 0x73FE [(3, 1)]) (fun t => t.reg 3 == 0xFFFFFFFF) = true := by decide +kernel
theorem test_addc_carries_out :
    ran (start 0x313E [(1, 1), (3, 0xFFFFFFFF)]) (fun t => t.reg 1 == 0 && t.tBit) = true := by decide +kernel
theorem test_addc_carries_in :
    ran (startT 0x302E [(0, 0), (2, 0)]) (fun t => t.reg 0 == 1 && !t.tBit) = true := by decide +kernel
theorem test_addv_overflows :
    ran (start 0x310F [(0, 2), (1, 0x7FFFFFFE)]) (fun t => t.reg 1 == 0x80000000 && t.tBit) = true := by decide +kernel
theorem test_cmpGe_is_signed :
    ran (startT 0x3103 [(0, 0x7FFFFFFF), (1, 0x80000000)]) (fun t => !t.tBit) = true := by decide +kernel
theorem test_cmpHs_is_unsigned :
    ran (start 0x3102 [(0, 0x7FFFFFFF), (1, 0x80000000)]) (fun t => t.tBit) = true := by decide +kernel
theorem test_cmpStr_middle_byte :
    ran (start 0x232C [(2, 0x41424344), (3, 0x5859435A)]) (fun t => t.tBit) = true := by decide +kernel
theorem test_div1_subtracts :
    ran (start 0x3104 [(0, 0x00070000), (1, 0x64)]) (fun t => t.reg 1 == 0xFFF900C8 && t.qBit && !t.tBit) = true := by decide +kernel
theorem test_div1_adds_back :
    ran ({ start 0x3104 [(0, 0x00070000), (1, 0xFFFF4000)] with sr := 0x100 }) (fun t => t.reg 1 == 0x00058000 && !t.qBit && t.tBit) = true := by decide +kernel
theorem test_div0s :
    ran (start 0x2017 [(0, 0x80000000), (1, 5)]) (fun t => t.qBit && !t.mBit && t.tBit) = true := by decide +kernel
theorem test_dt_reaches_zero :
    ran (start 0x4510 [(5, 1)]) (fun t => t.reg 5 == 0 && t.tBit) = true := by decide +kernel
theorem test_extuB :
    ran (start 0x610C [(0, 0xFFFFFF80)]) (fun t => t.reg 1 == 0x80) = true := by decide +kernel
theorem test_extsW :
    ran (start 0x610F [(0, 0x8000)]) (fun t => t.reg 1 == 0xFFFF8000) = true := by decide +kernel
theorem test_negc_borrows :
    ran (startT 0x600A [(0, 0)]) (fun t => t.reg 0 == 0xFFFFFFFF && t.tBit) = true := by decide +kernel
theorem test_subc_borrows_in :
    ran (startT 0x302A [(0, 0), (2, 0)]) (fun t => t.reg 0 == 0xFFFFFFFF && t.tBit) = true := by decide +kernel
theorem test_subv_overflows :
    ran (start 0x332B [(2, 0xFFFFFFFE), (3, 0x7FFFFFFE)]) (fun t => t.reg 3 == 0x80000000 && t.tBit) = true := by decide +kernel

theorem test_dmulsL_most_negative_product :
    ran (start 0x310D [(0, 0x80000000), (1, 0x7FFFFFFF)]) (fun t => t.mach == 0xC0000000 && t.macl == 0x80000000) = true := by decide +kernel
theorem test_dmuluL_largest_product :
    ran (start 0x3105 [(0, 0xFFFFFFFF), (1, 0xFFFFFFFF)]) (fun t => t.mach == 0xFFFFFFFE && t.macl == 1) = true := by decide +kernel
theorem test_mulsW_ignores_the_upper_halves :
    ran (start 0x210F [(0, 0x12348000), (1, 0xABCD8000)]) (fun t => t.macl == 0x40000000) = true := by decide +kernel
theorem test_macL_saturates :
    ran ({ start 0x010F [(0, 0x2000), (1, 0x2010)] [(0x2000, 0x80000000), (0x2010, 0x7FFFFFFF)] with sr := 2 }) (fun t => t.mach == 0xFFFF8000 && t.macl == 0) = true := by decide +kernel
theorem test_macL_same_register :
    ran (start 0x022F [(2, 0x2000)] [(0x2000, 3), (0x2004, 5)]) (fun t => t.macl == 15 && t.reg 2 == 0x2008) = true := by decide +kernel
theorem test_macW_same_register :
    ran (start 0x422F [(2, 0x2000)] [(0x2000, 0x0003FFFB)]) (fun t => t.mach == 0xFFFFFFFF && t.macl == 0xFFFFFFF1 && t.reg 2 == 0x2004) = true := by decide +kernel
theorem test_macW_wraps_at_42_bits_on_the_sh1 :
    ran (onSh1 { start 0x410F [(0, 0x2000), (1, 0x2010)] [(0x2000, 0x00020000), (0x2010, 0x00030000)] with mach := 0x1FF, macl := 0xFFFFFFFF }) (fun t => t.mach == 0xFFFFFE00 && t.macl == 5) = true := by decide +kernel
theorem test_macW_saturates_on_the_sh1 :
    ran (onSh1 { start 0x410F [(0, 0x2000), (1, 0x2010)] [(0x2000, 0xFFFF0000), (0x2010, 0x00010000)] with sr := 2, macl := 0x80000000 }) (fun t => t.mach == 1 && t.macl == 0x80000000) = true := by decide +kernel

theorem test_andB :
    ran ({ start 0xCDF0 [(0, 0x2002)] [(0x2000, 0x003C0000)] with gbr := 0xFFFFFFFF }) (fun t => t.mem.byte 0x2001 == 0x30) = true := by decide +kernel
theorem test_andImm_zero_extends :
    ran (start 0xC9FF [(0, 0x12345678)]) (fun t => t.reg 0 == 0x78) = true := by decide +kernel
theorem test_tasB_sets_bit_7 :
    ran (startT 0x411B [(1, 0x2001)] [(0x2000, 0x00010000)]) (fun t => !t.tBit && t.mem.byte 0x2001 == 0x81) = true := by decide +kernel
theorem test_tstB :
    ran ({ start 0xCC5A [(0, 0x10)] [(0x3010, 0xA5000000)] with gbr := 0x3000 }) (fun t => t.tBit && t.mem.byte 0x3010 == 0xA5) = true := by decide +kernel

theorem test_rotcl :
    ran (startT 0x4124 [(1, 0x40000000)]) (fun t => t.reg 1 == 0x80000001 && !t.tBit) = true := by decide +kernel
theorem test_rotcr :
    ran (startT 0x4125 [(1, 0)]) (fun t => t.reg 1 == 0x80000000 && !t.tBit) = true := by decide +kernel
theorem test_shar :
    ran (start 0x4021 [(0, 0x80000001)]) (fun t => t.reg 0 == 0xC0000000 && t.tBit) = true := by decide +kernel
theorem test_shlr16 :
    ran (start 0x4129 [(1, 0x8000FFFF)]) (fun t => t.reg 1 == 0x8000) = true := by decide +kernel

theorem test_bf_taken :
    ran (start 0x8BFD []) (fun t => t.pc == 0x0FFE && !t.intInhibit) = true := by decide +kernel
theorem test_bra_backward_by_the_most :
    ran (start 0xA800 []) (fun t => t.delayTarget == some 0x0004 && t.pc == 0x1002 && t.intInhibit) = true := by decide +kernel
theorem test_bsr_pr_is_after_the_slot :
    ran (start 0xB006 []) (fun t => t.pr == 0x1004 && t.delayTarget == some 0x1010) = true := by decide +kernel
theorem test_jsr :
    ran (start 0x4F0B [(15, 0x00FFFFF0)]) (fun t => t.pr == 0x1004 && t.delayTarget == some 0x00FFFFF0) = true := by decide +kernel
theorem test_branch_in_a_slot :
    ran ({ start 0 [(15, 0x8000)] [(0x1000, 0x0000890D), (0x18, 0x5000)] with pc := 0x1002, delayTarget := some 0x1010, intInhibit := true }) (fun t => t.pc == 0x5000 && t.mem.long false 0x7FF8 == 0x1010 && t.delayTarget == none) = true := by decide +kernel

theorem test_ldcSr_keeps_the_bits_that_exist :
    ran (start 0x400E [(0, 0xFFFFFFFF)]) (fun t => t.sr == 0x3F3 && t.intInhibit) = true := by decide +kernel
theorem test_ldsMach_on_the_sh1 :
    ran (onSh1 (start 0x400A [(0, 0x12345200)])) (fun t => t.mach == 0xFFFFFE00) = true := by decide +kernel
theorem test_stsLMacl_wraps :
    ran ({ start 0x4112 [(1, 0)] with macl := 7 }) (fun t => t.reg 1 == 0xFFFFFFFC && t.mem.long false 0xFFFFFFFC == 7) = true := by decide +kernel
theorem test_rte :
    ran ({ start 0x002B [(15, 0x7FF8)] [(0x7FF8, 0x1006), (0x7FFC, 0x101)] with sr := 0xF0 }) (fun t => t.sr == 0x101 && t.reg 15 == 0x8000 && t.delayTarget == some 0x1006) = true := by decide +kernel
theorem test_trapa :
    ran ({ start 0xC320 [(15, 0x8000)] [(0x480, 0x10000000)] with vbr := 0x400, sr := 0xF1 }) (fun t => t.pc == 0x10000000 && t.sr == 0xF1 && t.mem.long false 0x7FFC == 0xF1 && t.mem.long false 0x7FF8 == 0x1002) = true := by decide +kernel
theorem test_sleep :
    ran (start 0x001B []) (fun t => t.power == .sleep && t.pc == 0x1002) = true := by decide +kernel
theorem test_unassigned_code :
    ran ({ start 0xFFFF [(15, 0x8000)] [(0x10, 0x4000)] with sr := 0xF1 }) (fun t => t.pc == 0x4000 && t.reg 15 == 0x7FF8 && t.mem.long false 0x7FFC == 0xF1 && t.mem.long false 0x7FF8 == 0x1000) = true := by decide +kernel
theorem test_misaligned_stack_is_a_double_fault :
    step (start 0xFFFF [(15, 0x8002)] [(0x10, 0x4000)]) = .fault .doubleFault := rfl
theorem test_reset_of_empty_memory :
    step { State.reset with resetRequest := some .powerOn, vbr := 4, pr := 7 } = .next State.reset := rfl
theorem test_manual_reset_reads_the_second_pair :
    ran { start 0 [] [(0, 0x1000), (8, 0x2000), (12, 0x7000)] with resetRequest := some .manual }
      (fun t => t.pc == 0x2000 && t.reg 15 == 0x7000 && t.imask == 15) = true := by decide +kernel
/-- R402: the launch may supply PC and R15 itself, and the table is then not read. -/
theorem test_reset_values_of_the_launch :
    ran { start 0 [] with resetRequest := some .powerOn, cfg := { resetConfig with
        powerOnReset := .values 0x2000 0x7000, refused := [⟨⟨0, 8⟩, .read, 4⟩] } }
      (fun t => t.pc == 0x2000 && t.reg 15 == 0x7000 && t.vbr == 0) = true := by decide +kernel
/-- R66: a store is seen after a taken branch, also one to the word behind its slot (BRA with disp 0). -/
theorem test_store_is_seen_after_a_branch_to_the_next_word :
    ran { start 0 [] [(0x1000, 0xA0000009), (0x1004, 0xE1070000)] with
        pc := 0x1002, delayTarget := some 0x1004, intInhibit := true, recentStores := [⟨0x1004, 2, 3⟩] }
      (fun t => t.pc == 0x1004 && t.fetch == .code 0xE107) = true := by decide +kernel
/-- U6, D21: behind a BF/S that did not branch the record stays. -/
theorem test_store_is_not_seen_after_an_untaken_branch :
    ran { start 0 [] [(0x1000, 0x8F000009), (0x1004, 0xE1070000)] with
        pc := 0x1002, delayTarget := some 0x1004, slotAfterUntaken := true, intInhibit := true,
        recentStores := [⟨0x1004, 2, 3⟩] }
      (fun t => t.pc == 0x1004 && t.fetch == .fault (.staleFetch 0x1004)) = true := by decide +kernel
/-- The interrupt of spec/97_test_vectors_3.md, section 8.5: level 4 over mask 3, asleep. -/
theorem test_interrupt_wakes :
    ran { start 0x7101 [(15, 0x8000)] [(0x100, 0x7000)] with
        pc := 0x1002, sr := 0x30, power := .sleep, pending := [⟨0, 3, 64⟩, ⟨1, 4, 64⟩] }
      (fun t => t.pc == 0x7000 && t.sr == 0x40 && t.power == .run && t.mem.long false 0x7FFC == 0x30 &&
        t.mem.long false 0x7FF8 == 0x1002) = true := by decide +kernel
theorem test_withFetchWord_runs_the_word :
    ran (State.reset.withFetchWord 16 0xE180) (fun t => t.reg 1 == 0xFFFFFF80 && t.pc == 2) = true := by decide +kernel
theorem test_decodeTableWord : decodeTableWord 16 0x6103 = some (.mov 0 1) := rfl

/-! ### Witnesses: states and operands that meet the hypotheses of the statements -/

/-- A state with an even stack and data in reach of every register the witnesses use. -/
def base : State := start 0x0009 [(1, 0x2000), (2, 0x2010), (15, 0x8000)]

/-- The same with the pc in the slot of a branch to `d`. -/
def inSlot (d : Word) : State := { base with delayTarget := some d, intInhibit := true }

theorem can_of {s : State} {kind : AccessKind} {bytes : Nat} {a : Word}
    (h : (alignedFor bytes a && memAdmits s.cfg a bytes kind) = true) : s.can kind bytes a := by
  simpa [State.can] using h

/-- The top of memory: every width has an access that ends there. -/
theorem witness_top_of_memory :
    base.can .read 1 0xFFFFFFFF ∧ base.can .write 2 0xFFFFFFFE ∧ base.can .read 4 0xFFFFFFFC :=
  ⟨can_of (by decide +kernel), can_of (by decide +kernel), can_of (by decide +kernel)⟩

/-- PcRelativeForms: the word and the longword are readable, outside a slot and in one; in the slot of a branch to an odd
address the word is misaligned. -/
theorem witness_PcRelativeForms :
    base.can .read 2 (base.pc + 4 + 0xFF * 2) ∧ base.can .read 4 (((base.pc + 4) &&& 0xFFFFFFFC) + 0xFF * 4) ∧
    (inSlot 0x3000).can .read 2 (0x3000 + 2 + 0 * 2) ∧ alignedFor 2 ((0x3001 : Word) + 2 + 0 * 2) = false :=
  ⟨can_of (by decide +kernel), can_of (by decide +kernel), can_of (by decide +kernel), by decide +kernel⟩

/-- IndirectLoads, PostIncrementLoads: readable for each width, and misaligned for a word and for a longword. -/
theorem witness_IndirectLoads :
    base.can .read 1 (base.reg 1) ∧ base.can .read 2 (base.reg 1) ∧ base.can .read 4 (base.reg 1) ∧
    alignedFor 2 ((base.setReg 1 0x2001).reg 1) = false ∧ alignedFor 4 ((base.setReg 1 0x2002).reg 1) = false :=
  ⟨can_of (by decide +kernel), can_of (by decide +kernel), can_of (by decide +kernel), by decide +kernel,
    by decide +kernel⟩

/-- PostIncrementLoads: as IndirectLoads, at the top of memory. -/
theorem witness_PostIncrementLoads :
    (base.setReg 1 0xFFFFFFFF).can .read 1 ((base.setReg 1 0xFFFFFFFF).reg 1) ∧
    (base.setReg 1 0xFFFFFFFE).can .read 2 ((base.setReg 1 0xFFFFFFFE).reg 1) ∧
    (base.setReg 1 0xFFFFFFFC).can .read 4 ((base.setReg 1 0xFFFFFFFC).reg 1) ∧
    alignedFor 2 ((base.setReg 1 0xFFFFFFFF).reg 1) = false ∧ alignedFor 4 ((base.setReg 1 0xFFFFFFFE).reg 1) = false :=
  ⟨can_of (by decide +kernel), can_of (by decide +kernel), can_of (by decide +kernel), by decide +kernel,
    by decide +kernel⟩

/-- DisplacedIndexedGbrLoads: each address readable with the largest displacements; misaligned from an odd base. -/
theorem witness_DisplacedIndexedGbrLoads :
    (base.can .read 1 (base.reg 1 + 15) ∧ base.can .read 2 (base.reg 1 + 15 * 2) ∧ base.can .read 4 (base.reg 1 + 15 * 4)) ∧
    (base.can .read 1 (base.reg 1 + base.reg 0) ∧ base.can .read 2 (base.reg 1 + base.reg 0) ∧
      base.can .read 4 (base.reg 1 + base.reg 0)) ∧
    (base.can .read 1 (base.gbr + 255) ∧ base.can .read 2 (base.gbr + 255 * 2) ∧ base.can .read 4 (base.gbr + 255 * 4)) ∧
    alignedFor 2 ((0x2001 : Word) + 15 * 2) = false ∧ alignedFor 4 ((0x2002 : Word) + 15 * 4) = false :=
  ⟨⟨can_of (by decide +kernel), can_of (by decide +kernel), can_of (by decide +kernel)⟩,
    ⟨can_of (by decide +kernel), can_of (by decide +kernel), can_of (by decide +kernel)⟩,
    ⟨can_of (by decide +kernel), can_of (by decide +kernel), can_of (by decide +kernel)⟩, by decide +kernel, by decide +kernel⟩

/-- IndirectStores. -/
theorem witness_IndirectStores :
    base.can .write 1 (base.reg 1) ∧ base.can .write 2 (base.reg 1) ∧ base.can .write 4 (base.reg 1) ∧
    alignedFor 2 ((base.setReg 1 0x2001).reg 1) = false ∧ alignedFor 4 ((base.setReg 1 0x2002).reg 1) = false :=
  ⟨can_of (by decide +kernel), can_of (by decide +kernel), can_of (by decide +kernel), by decide +kernel,
    by decide +kernel⟩

/-- DisplacedIndexedGbrStores. -/
theorem witness_DisplacedIndexedGbrStores :
    (base.can .write 1 (base.reg 1 + 15) ∧ base.can .write 2 (base.reg 1 + 15 * 2) ∧
      base.can .write 4 (base.reg 1 + 15 * 4)) ∧
    (base.can .write 1 (base.reg 1 + base.reg 0) ∧ base.can .write 2 (base.reg 1 + base.reg 0) ∧
      base.can .write 4 (base.reg 1 + base.reg 0)) ∧
    (base.can .write 1 (base.gbr + 255) ∧ base.can .write 2 (base.gbr + 255 * 2) ∧ base.can .write 4 (base.gbr + 255 * 4)) ∧
    alignedFor 2 ((0x2001 : Word) + 0 * 2) = false ∧ alignedFor 4 ((0x2002 : Word) + 0 * 4) = false :=
  ⟨⟨can_of (by decide +kernel), can_of (by decide +kernel), can_of (by decide +kernel)⟩,
    ⟨can_of (by decide +kernel), can_of (by decide +kernel), can_of (by decide +kernel)⟩,
    ⟨can_of (by decide +kernel), can_of (by decide +kernel), can_of (by decide +kernel)⟩, by decide +kernel, by decide +kernel⟩

/-- PreDecrementStores: from the bottom of memory each width goes to its top. -/
theorem witness_PreDecrementStores :
    base.can .write 1 (base.reg 3 - 1) ∧ base.can .write 2 (base.reg 3 - 2) ∧ base.can .write 4 (base.reg 3 - 4) ∧
    alignedFor 2 ((0x2001 : Word) - 2) = false ∧ alignedFor 4 ((0x2002 : Word) - 4) = false :=
  ⟨can_of (by decide +kernel), can_of (by decide +kernel), can_of (by decide +kernel), by decide +kernel,
    by decide +kernel⟩

/-- DivisionStepIn33Bits. -/
theorem witness_DivisionStepIn33Bits : ∃ t, (1 : Reg) ≠ 2 ∧ exec (.div1 1 2) base = .next t := ⟨_, by decide, rfl⟩

/-- DecrementAndTest, Multiplications, DelayedConditionalBranches, UnconditionalBranches, SubroutineCalls: an SH-2 outside
a delay slot. -/
theorem witness_outside_a_slot : base.cfg.cpu = .sh2 ∧ base.delayTarget = none := ⟨rfl, rfl⟩

/-- MacLong: two registers, and one register read twice. -/
theorem witness_MacLong :
    base.cfg.cpu = .sh2 ∧ base.can .read 4 (base.reg 2) ∧ base.can .read 4 (base.macSecond 1 2 4) ∧
    base.can .read 4 (base.macSecond 2 2 4) ∧ base.sBit = false ∧ ({ base with sr := 2 } : State).sBit = true :=
  ⟨rfl, can_of (by decide +kernel), can_of (by decide +kernel), can_of (by decide +kernel), rfl, rfl⟩

/-- MacWord, on both CPUs. -/
theorem witness_MacWord :
    base.sBit = false ∧ base.can .read 2 (base.reg 2) ∧ base.can .read 2 (base.macSecond 1 2 2) ∧ base.cfg.cpu = .sh2 ∧
    (onSh1 base).sBit = false ∧ (onSh1 base).can .read 2 ((onSh1 base).reg 2) ∧
    (onSh1 base).can .read 2 ((onSh1 base).macSecond 2 2 2) ∧ (onSh1 base).cfg.cpu = .sh1 :=
  ⟨rfl, can_of (by decide +kernel), can_of (by decide +kernel), rfl, rfl, can_of (by decide +kernel),
    can_of (by decide +kernel), rfl⟩

/-- S set, MACL at its maximum, words 2 and 3 to be multiplied: the sum overflows. -/
def saturating : State :=
  { start 0x410F [(1, 0x2000), (2, 0x2010)] [(0x2000, 0x00020000), (0x2010, 0x00030000)] with
    sr := 2, macl := 0x7FFFFFFF }

/-- MacWordSaturating: an overflow that the SH-1 flags, one that the SH-2 flags, one that it does not, and none. -/
theorem witness_MacWordSaturating :
    saturating.sBit = true ∧ saturating.can .read 2 (saturating.reg 2) ∧
    saturating.can .read 2 (saturating.macSecond 1 2 2) ∧
    2 ^ 31 - 1 < saturating.macl.toInt + (saturating.loaded 2 (saturating.reg 2)).toInt *
      (saturating.loaded 2 (saturating.macSecond 1 2 2)).toInt ∧
    (onSh1 saturating).cfg.cpu = .sh1 ∧
    ({ saturating with cfg := { saturating.cfg with macwSatFlagSh2 := true } } : State).cfg.macwSatFlagSh2 = true ∧
    ({ saturating with cfg := { saturating.cfg with macwSatFlagSh2 := false } } : State).cfg.macwSatFlagSh2 = false ∧
    ({ saturating with macl := 0 } : State).macl.toInt + 2 * 3 ≤ 2 ^ 31 - 1 :=
  ⟨rfl, can_of (by decide +kernel), can_of (by decide +kernel), by decide +kernel, rfl, rfl, rfl, by decide +kernel⟩

/-- LogicOnMemory, TestAndSet. -/
theorem witness_LogicOnMemory :
    base.can .read 1 (base.gbr + base.reg 0) ∧ base.can .write 1 (base.gbr + base.reg 0) ∧
    base.can .read 1 (base.reg 1) ∧ base.can .write 1 (base.reg 1) :=
  ⟨can_of (by decide +kernel), can_of (by decide +kernel), can_of (by decide +kernel), can_of (by decide +kernel)⟩

/-- ConditionalBranches: taken and not taken, outside a slot. -/
theorem witness_ConditionalBranches :
    base.delayTarget = none ∧ base.tBit = false ∧ ({ base with sr := 1 } : State).tBit = true := ⟨rfl, rfl, rfl⟩

/-- DelayedConditionalBranches: both values of the open parameter. -/
theorem witness_DelayedConditionalBranches :
    ({ base with cfg := { base.cfg with bcsSlotCheckAlways := true } } : State).cfg.bcsSlotCheckAlways = true ∧
    ({ base with cfg := { base.cfg with bcsSlotCheckAlways := false } } : State).cfg.bcsSlotCheckAlways = false ∧
    base.cfg.cpu = .sh2 ∧ base.delayTarget = none := ⟨rfl, rfl, rfl, rfl⟩

/-- SlotIllegalInstructions. -/
theorem witness_SlotIllegalInstructions :
    rewritesPc (.bf 1) = true ∧ rewritesPc .rte = true ∧ (inSlot 0x1010).delayTarget = some 0x1010 := ⟨rfl, rfl, rfl⟩

/-- Sh2InstructionsOnSh1. -/
theorem witness_Sh2InstructionsOnSh1 :
    (Instr.dt 3).sh2Only = true ∧ (onSh1 base).cfg.cpu = .sh1 ∧ (onSh1 base).delayTarget = none := ⟨rfl, rfl, rfl⟩

/-- ControlLoadsFromMemory, ControlStoresToMemory. -/
theorem witness_control_memory :
    base.can .read 4 (base.reg 15) ∧ base.can .write 4 (base.reg 15 - 4) ∧ base.can .write 4 (base.reg 3 - 4) ∧
    alignedFor 4 ((base.setReg 15 0x8002).reg 15) = false ∧ alignedFor 4 ((base.setReg 15 0x8002).reg 15 - 4) = false :=
  ⟨can_of (by decide +kernel), can_of (by decide +kernel), can_of (by decide +kernel), by decide +kernel, by decide +kernel⟩

/-- ReturnFromException. -/
theorem witness_ReturnFromException :
    base.delayTarget = none ∧ base.can .read 4 (base.reg 15) ∧ base.can .read 4 (base.reg 15 + 4) ∧
    alignedFor 4 ((base.setReg 15 0x8002).reg 15) = false :=
  ⟨rfl, can_of (by decide +kernel), can_of (by decide +kernel), by decide +kernel⟩

/-- TrapAlways, ExceptionEntrySequence, DoubleFaults from the right: the entry is possible. -/
theorem witness_canEnter : base.canEnter 0x20 :=
  ⟨can_of (by decide +kernel), can_of (by decide +kernel), can_of (by decide +kernel)⟩

/-- DoubleFaults from the left: with a stack pointer off by two the entry is not possible. -/
theorem witness_DoubleFaults : ¬ (base.setReg 15 0x8002).canEnter 4 := by
  rintro ⟨⟨h, -⟩, -⟩
  exact absurd h (by decide +kernel)

/-- ReturnUndoesEntry: entered by an interrupt of level 5. -/
theorem witness_ReturnUndoesEntry :
    (∃ t, base.exceptionEntry 64 0x1000 (some 5) = .next t) ∧ base.sr &&& ~~~0x000003F3 = 0 ∧
    base.can .read 4 (base.reg 15 - 8) ∧ base.can .read 4 (base.reg 15 - 4) :=
  ⟨⟨_, rfl⟩, by decide +kernel, can_of (by decide +kernel), can_of (by decide +kernel)⟩

/-- A state to which a request is offered. -/
def offered (q : IntRequest) : State := { base with pending := [q] }

/-- A request has waited for as long as it can. -/
def waiting : State := { offered ⟨0, 5, 64⟩ with waits := [(⟨0, 5, 64⟩, Config.acceptDelay 0)] }

/-- InterruptAcceptance: asleep, and running when the wait is over; an NMI over mask 15, a user break over mask 14. -/
theorem witness_InterruptAcceptance :
    (({ offered ⟨0, 5, 64⟩ with power := .sleep } : State).bestRequest = some ⟨0, 5, 64⟩ ∧
      ({ offered ⟨0, 5, 64⟩ with power := .sleep } : State).resetRequest = none) ∧
    (waiting.bestRequest = some ⟨0, 5, 64⟩ ∧ ⟨0, 5, 64⟩ ∈ waiting.pending ∧ waiting.acceptable ⟨0, 5, 64⟩ = true ∧
      Config.acceptDelay waiting.acceptedCount ≤ waitOf waiting.waits ⟨0, 5, 64⟩) ∧
    ({ offered (nmiRequest base.cfg 1) with sr := 0xF0 } : State).bestRequest = some ⟨1, 16, 11⟩ ∧
    ({ offered (userBreakRequest base.cfg 2) with sr := 0xE0 } : State).bestRequest = some ⟨2, 15, 12⟩ ∧
    (offered ⟨0, 5, 64⟩).canEnter 64 :=
  ⟨⟨rfl, rfl⟩, ⟨rfl, List.mem_singleton.mpr rfl, rfl, Nat.le_refl _⟩, rfl, rfl, can_of (by decide +kernel),
    can_of (by decide +kernel), can_of (by decide +kernel)⟩

/-- InterruptAcceptance, the waits: counted on while acceptable, started again when inhibited. -/
theorem witness_InterruptAcceptance_waits :
    waitOf ({ offered ⟨0, 5, 64⟩ with waits := [(⟨0, 5, 64⟩, 6)] } : State).passBoundary.waits ⟨0, 5, 64⟩ = 7 ∧
    waitOf ({ offered ⟨0, 5, 64⟩ with waits := [(⟨0, 5, 64⟩, 6)], intInhibit := true } : State).passBoundary.waits
      ⟨0, 5, 64⟩ = 0 := by
  decide +kernel

/-- NothingAccepted: inhibited; in a slot; masked at the level of the mask, running and asleep. -/
theorem witness_NothingAccepted :
    (({ base with intInhibit := true } : State).intInhibit = true ∧ base.resetRequest = none) ∧
    (inSlot 0x1010).delayTarget ≠ none ∧
    (∀ q ∈ ({ offered ⟨0, 5, 64⟩ with sr := 0x50 } : State).pending, q.level.val ≠ 16 ∧
      q.level.val ≤ ({ offered ⟨0, 5, 64⟩ with sr := 0x50 } : State).imask.toNat) ∧
    base.power = .run ∧ ({ base with power := .sleep } : State).power = .sleep := by
  refine ⟨⟨rfl, rfl⟩, by simp [inSlot], ?_, rfl, rfl⟩
  intro q hq
  simp only [offered, List.mem_singleton] at hq
  subst hq
  decide +kernel

/-- ResetStep, for both resets: from the table, with the launch's values, and with a table the platform refuses. -/
theorem witness_ResetStep :
    base.cfg.powerOnReset = .table ∧ base.cfg.manualReset = .table ∧
    ({ base.cfg with manualReset := .values 0x2000 0x7000 } : Config).manualReset = .values 0x2000 0x7000 ∧
    memAdmits { base.cfg with refused := [⟨⟨0, 8⟩, .read, 4⟩] } 0 4 .read = false ∧
    ({ base with resetRequest := some .powerOn } : State).resetRequest = some .powerOn ∧
    ({ base with resetRequest := some .manual } : State).resetRequest = some .manual ∧
    memAdmits base.cfg 0 4 .read = true ∧ memAdmits base.cfg 4 4 .read = true ∧ memAdmits base.cfg 8 4 .read = true ∧
    memAdmits base.cfg 12 4 .read = true := ⟨rfl, rfl, rfl, rfl, rfl, rfl, rfl, rfl, rfl, rfl⟩

/-- StepRunsDecoded. -/
theorem witness_StepRunsDecoded :
    base.resetRequest = none ∧ base.power = .run ∧ base.acceptedNow = none ∧ alignedHalf base.pc = true ∧
    memAdmits base.cfg base.pc 2 .fetch = true ∧ littleEndian base.cfg base.pc = false ∧ base.stale base.pc = false ∧
    decode base.cfg.cpu [base.mem.byte base.pc, base.mem.byte (base.pc + 1)] = .ok (.nop, []) :=
  ⟨rfl, rfl, rfl, rfl, rfl, rfl, rfl, rfl⟩

/-- StepTakesFetchExceptions: an odd pc; a code that is no instruction. -/
theorem witness_StepTakesFetchExceptions :
    alignedHalf ({ base with pc := 0x1001 } : State).pc = false ∧
    ({ base with pc := 0x1001 } : State).acceptedNow = none ∧ (start 0xFFFF []).fetch = .code 0xFFFF ∧
    ∀ i, decodeWord (start 0xFFFF []).cfg.cpu 0xFFFF ≠ .ok i := by
  refine ⟨rfl, rfl, rfl, ?_⟩
  intro i h
  have : decodeWord (start 0xFFFF []).cfg.cpu 0xFFFF = .error (.unassigned 0xFFFF) := rfl
  rw [this] at h
  cases h

/-- StoreIntoNextWordStops, the stop: a store of the last instruction that covers the word, one of the third last that
covers its second byte, and one beside it. -/
theorem witness_StoreIntoNextWordStops_stop :
    ({ base with recentStores := [⟨0x1000, 4, 3⟩] } : State).stale base.pc = true ∧
    ({ base with recentStores := [⟨0x1001, 1, 1⟩] } : State).stale base.pc = true ∧
    ({ base with recentStores := [⟨0x1002, 2, 3⟩, ⟨0x0FFE, 2, 3⟩] } : State).stale base.pc = false ∧
    base.acceptedNow = none ∧ base.resetRequest = none ∧ base.power = .run := ⟨rfl, rfl, rfl, rfl, rfl, rfl⟩

/-- StoreIntoNextWordStops, what is remembered: a store completes outside a slot, in the slot of a branch and in the slot
of one that was not taken. -/
theorem witness_StoreIntoNextWordStops_record :
    legal (.movLStore 0 1) base ∧ base.accessOutcome (accesses (.movLStore 0 1) base) = .allowed ∧
    branchesHere (.movLStore 0 1) base = false ∧ branchesHere (.movLStore 0 1) (inSlot 0x3000) = true ∧
    branchesHere (.movLStore 0 1) { inSlot 0x1002 with slotAfterUntaken := true } = false ∧
    branchesHere (.bf 1) base = true :=
  ⟨⟨rfl, fun h => by cases h⟩, by decide +kernel, rfl, rfl, rfl, rfl⟩

/-- StoreIntoNextWordStops, the last clause. -/
theorem witness_StoreIntoNextWordStops :
    ∃ t, exec (.movWStore 0 1) (base.setReg 1 0x1002) = .next t ∧ (base.setReg 1 0x1002).delayTarget = none ∧
      (base.setReg 1 0x1002).reg 1 = (base.setReg 1 0x1002).pc + 2 ∧ t.acceptedNow = none :=
  ⟨_, rfl, rfl, rfl, rfl⟩

/-- DecodeOfEncode, EncodeOfDecode. -/
theorem witness_encoding :
    (Instr.macL 15 0).wellFormed .sh2 = true ∧ (Instr.mov 15 0).wellFormed .sh1 = true ∧
    decodeWord .sh1 0x60F3 = .ok (.mov 15 0) := ⟨rfl, rfl, rfl⟩

/-- StepKeepsInvariant, StepKeepsParameters: a state with the invariant, asleep beside it, takes a step. -/
theorem witness_StepKeepsInvariant : base.Inv ∧ ∃ t, step base = .next t := by
  refine ⟨⟨by decide +kernel, ?_, ?_, ?_, ?_, ?_⟩, ⟨_, rfl⟩⟩
  · show base.sr &&& ~~~srMask = 0
    decide +kernel
  · intro _
    decide +kernel
  · intro h
    exact absurd rfl h
  · intro h
    cases h
  · intro h
    cases h

/-- AccessesDecideOutcome: each of the three outcomes. -/
theorem witness_AccessesDecideOutcome :
    legal (.movLLoad 1 2) base ∧ base.accessOutcome (accesses (.movLLoad 1 2) base) = .allowed ∧
    (base.setReg 1 0x2002).accessOutcome (accesses (.movLLoad 1 2) (base.setReg 1 0x2002)) = .misaligned ∧
    ({ base with cfg := { base.cfg with refused := [⟨⟨0x2000, 4⟩, .read, 4⟩] } } : State).accessOutcome
      (accesses (.movLLoad 1 2) base) = .refused .read 0x2000 :=
  ⟨⟨rfl, fun h => by cases h⟩, by decide +kernel, by decide +kernel, by decide +kernel⟩

/-- StatusBitsWritten: a state whose reserved bits are 0, and an instruction that writes all the others. -/
theorem witness_StatusBitsWritten :
    base.srReservedZero ∧ (∃ t, exec (.ldcSr 1) base = .next t) ∧ (31 : Nat) ∉ statusBitsWritten (.ldcSr 1) := by
  refine ⟨?_, ⟨_, rfl⟩, by decide⟩
  show base.sr &&& ~~~srMask = 0
  decide +kernel

/-- SpecialRegisterWriters: each of the five registers is changed by some instruction. -/
theorem witness_SpecialRegisterWriters :
    (∃ t, exec (.ldsMach 1) base = .next t ∧ t.mach ≠ base.mach) ∧
    (∃ t, exec (.ldsMacl 1) base = .next t ∧ t.macl ≠ base.macl) ∧
    (∃ t, exec (.bsr 0) base = .next t ∧ t.pr ≠ base.pr) ∧
    (∃ t, exec (.ldcGbr 1) base = .next t ∧ t.gbr ≠ base.gbr) ∧
    (∃ t, exec (.ldcVbr 1) base = .next t ∧ t.vbr ≠ base.vbr) :=
  ⟨⟨_, rfl, by decide +kernel⟩, ⟨_, rfl, by decide +kernel⟩, ⟨_, rfl, by decide +kernel⟩, ⟨_, rfl, by decide +kernel⟩,
    ⟨_, rfl, by decide +kernel⟩⟩

/-- SpecialRegisterWriters, exceptions: an entry, and a misaligned load. -/
theorem witness_SpecialRegisterWriters_exceptions :
    (∃ t, base.exceptionEntry 9 0x1002 none = .next t) ∧
    TakesAddressError (.movLLoad 1 2) (base.setReg 1 0x2002) ∧
    ∃ t, exec (.movLLoad 1 2) (base.setReg 1 0x2002) = .next t :=
  ⟨⟨_, rfl⟩, rfl, ⟨_, rfl⟩⟩

/-- MemoryCanonical: two memories in the canonical form, written in different orders, that read the same. -/
theorem witness_MemoryCanonical :
    Memory.wf (Memory.set (Memory.set [] 7 1) 0 2) = true ∧ Memory.wf (Memory.set (Memory.set [] 0 2) 7 1) = true ∧
    ∀ a : Word, Memory.byte (Memory.set (Memory.set [] 7 1) 0 2) a = Memory.byte (Memory.set (Memory.set [] 0 2) 7 1) a :=
  ⟨rfl, rfl, fun _ => rfl⟩

end Sys2Proof.Tests
end

