-- ==== Sys2Proof/Proofs/DataTransfer.lean ====
section
/-! PROOF. The family of spec/40_data_transfer.md.  First what the proofs about ordinary instructions share: the frame
is kept by the operations a meaning is made of, `finish` ends an instruction as R34 and R283 say, a code is decoded
through its digits.  Then the transfers that write one register. -/
namespace Sys2Proof.Machine

/-! ### The frame, one rule per operation -/

theorem Frame.refl (w : Writes) (s : State) : Frame w s s where
  regs _ _ := rfl
  sr _ _ _ := rfl
  gbr _ := rfl
  vbr _ := rfl
  mach _ := rfl
  macl _ := rfl
  pr _ := rfl
  mem _ _ := rfl
  pending := rfl
  lastAccepted := rfl
  resetRequest := rfl
  acceptedCount := rfl
  passedCount := rfl
  waits := rfl
  cfg := rfl

/-- A register that the frame names may be written. -/
theorem Frame.setReg {w : Writes} {s t : State} (f : Frame w s t) {n : Reg} (hn : n ∈ w.regs) (v : Word) :
    Frame w s (t.setReg n v) :=
  { f with
    regs := fun r hr => by
      have hne : r ≠ n := fun h => hr (h ▸ hn)
      rw [State.setReg_reg_ne t v hne, f.regs r hr] }

/-- The end of an instruction touches nothing a frame speaks of. -/
theorem Frame.finish {w : Writes} {s t : State} (f : Frame w s t) : Frame w s t.finish := { f with }

/-! ### The end of an ordinary instruction -/

/-- `finish` ends the instruction when the meaning before it left the pc, the pending branch and sleep alone. -/
theorem ends_finish {s t : State} (hpc : t.pc = s.pc) (hdelay : t.delayTarget = s.delayTarget)
    (hpower : t.power = s.power) : Ends s t.finish false where
  pc := by
    rw [State.finish_pc, State.nextPc, hpc, hdelay]
    cases s.delayTarget <;> rfl
  delayTarget := rfl
  slotAfterUntaken := rfl
  intInhibit := rfl
  power := hpower

/-- An instruction whose meaning is one register write and `finish` writes that register and nothing else. -/
theorem writesReg_of_exec {i : Instr} {s : State} {n : Reg} {v : Word}
    (h : exec i s = .next (s.setReg n v).finish) : WritesReg i s n v := by
  have hframe : Frame { regs := [n] } s (s.setReg n v).finish :=
    ((Frame.refl _ s).setReg (List.mem_singleton_self n) v).finish
  exact ⟨_, h, State.setReg_reg_same s n v, hframe, ends_finish rfl rfl rfl⟩

/-! ### Codes -/

/-- An instruction has a code when the encoder gives it and the decoder, on the code's digits, finds the instruction. -/
theorem hasCode_of_digits {i : Instr} {a b c d : BitVec 4} (henc : encodeWord i = code a b c d)
    (hdec : decodeDigits a b c d = some i) : HasCode i (code a b c d) := by
  refine ⟨henc, fun cpu hwf => ?_⟩
  rw [decodeWord_code, hdec]
  exact if_pos hwf

/-- A code with an 8-bit field, written as two digits or as a whole. -/
theorem code_field8 (a b : BitVec 4) (v : BitVec 8) :
    code a b (v.extractLsb' 4 4) (v.extractLsb' 0 4) = a ++ b ++ v := by
  unfold code
  rw [BitVec.append_assoc, field8_digits]
  rfl

/-- The code of an instruction with an 8-bit field in its low byte. -/
theorem hasCode_of_field8 {i : Instr} {a b : BitVec 4} {v : BitVec 8}
    (henc : encodeWord i = code a b (v.extractLsb' 4 4) (v.extractLsb' 0 4))
    (hdec : decodeDigits a b (v.extractLsb' 4 4) (v.extractLsb' 0 4) = some i) : HasCode i (a ++ b ++ v) :=
  code_field8 a b v ▸ hasCode_of_digits henc hdec

theorem decodeDigits_movImm (imm : BitVec 8) (n : Reg) :
    decodeDigits 0xE n.toField (imm.extractLsb' 4 4) (imm.extractLsb' 0 4) = some (.movImm imm n) := by
  change some (Instr.movImm (imm.extractLsb' 4 4 ++ imm.extractLsb' 0 4) n) = _
  rw [field8_digits]

/-- In the row of MOVT the decoder looks at bits 11 to 8 first, for NOP and DIV0U; the digit 2 behind them is MOVT's
alone, whatever the register. -/
theorem decodeDigits_movt (n : Reg) : decodeDigits 0x0 n.toField 0x2 0x9 = some (.movt n) := by
  revert n
  decide

/-! ### Register transfers -/

theorem movt_value (t : Bool) : BitVec.ofNat 32 (bit t) = if t then 1 else 0 := by
  cases t <;> rfl

theorem writesReg_movt (s : State) (n : Reg) : WritesReg (.movt n) s n (if s.tBit then 1 else 0) := by
  rw [← movt_value]
  exact writesReg_of_exec rfl

/-- Settles O1: each meaning is one register write and `finish`, and each code is decoded through its digits. -/
theorem registerTransfers : Obligations.RegisterTransfers := by
  refine ⟨fun s m n imm => ⟨?mov, ?movImm, ?movt, ?swapB, ?swapW, ?xtrct⟩,
    fun m n imm => ⟨?movCode, ?movImmCode, ?movtCode, ?swapBCode, ?swapWCode, ?xtrctCode⟩⟩
  case mov => exact writesReg_of_exec rfl
  case movImm => exact writesReg_of_exec rfl
  case movt => exact writesReg_movt s n
  case swapB => exact writesReg_of_exec rfl
  case swapW => exact writesReg_of_exec rfl
  case xtrct => exact writesReg_of_exec rfl
  case movCode => exact hasCode_of_digits rfl rfl
  case movImmCode => exact hasCode_of_field8 rfl (decodeDigits_movImm imm n)
  case movtCode => exact hasCode_of_field8 rfl (decodeDigits_movt n)
  case swapBCode => exact hasCode_of_digits rfl rfl
  case swapWCode => exact hasCode_of_digits rfl rfl
  case xtrctCode => exact hasCode_of_digits rfl rfl

end Sys2Proof.Machine
end

