-- ==== Sys2Proof/Proofs/Arithmetic.lean ====
section
/-! PROOF. The family of spec/41_arithmetic.md.  First the frame under a write to one bit of SR, and the two endings the
family adds to the register write: T alone, a register and T.  Then what the words and flags are worth as numbers, with
no state in sight.  Each obligation puts the two together. -/
namespace Sys2Proof.Machine

/-! ### The frame under a write to SR -/

/-- A bit of SR that the frame names may be written. -/
theorem Frame.putSrBit {w : Writes} {s t : State} (f : Frame w s t) {i : Nat} (hi : i ∈ w.srBits) (b : Bool) :
    Frame w s { t with sr := putBit t.sr i b } :=
  { f with
    sr := fun j hj hjw => by
      have hne : j ≠ i := fun h => hjw (h ▸ hi)
      rw [putBit_getLsbD _ _ _ _ hj, if_neg hne, f.sr j hj hjw] }

theorem Frame.setT {w : Writes} {s t : State} (f : Frame w s t) (h : 0 ∈ w.srBits) (b : Bool) :
    Frame w s (t.setT b) := f.putSrBit h b

theorem Frame.setQ {w : Writes} {s t : State} (f : Frame w s t) (h : 8 ∈ w.srBits) (b : Bool) :
    Frame w s (t.setQ b) := f.putSrBit h b

theorem Frame.setM {w : Writes} {s t : State} (f : Frame w s t) (h : 9 ∈ w.srBits) (b : Bool) :
    Frame w s (t.setM b) := f.putSrBit h b

/-! ### Meanings that write T -/

/-- What is known of the end of an instruction may be weakened. -/
theorem Completes.imp {i : Instr} {s : State} {P Q : State → Prop} (h : Completes i s P) (hPQ : ∀ t, P t → Q t) :
    Completes i s Q :=
  Exists.imp (fun t ⟨hexec, hP⟩ => ⟨hexec, hPQ t hP⟩) h

/-- An instruction whose meaning is a write to T and `finish` writes T and nothing else. -/
theorem writesT_of_exec {i : Instr} {s : State} {b : Bool} (h : exec i s = .next (s.setT b).finish) :
    WritesT i s b := by
  have hframe : Frame { srBits := [0] } s (s.setT b).finish :=
    ((Frame.refl _ s).setT (List.mem_singleton_self 0) b).finish
  exact ⟨_, h, State.setT_tBit s b, hframe, ends_finish rfl rfl rfl⟩

/-- An instruction whose meaning is a register write, a write to T and `finish` writes these two and nothing else. -/
theorem writesRegT_of_exec {i : Instr} {s : State} {n : Reg} {v : Word} {b : Bool}
    (h : exec i s = .next ((s.setReg n v).setT b).finish) : WritesRegT i s n v b := by
  have hframe : Frame { regs := [n], srBits := [0] } s ((s.setReg n v).setT b).finish :=
    (((Frame.refl _ s).setReg (List.mem_singleton_self n) v).setT (List.mem_singleton_self 0) b).finish
  exact ⟨_, h, State.setReg_reg_same s n v, State.setT_tBit _ b, hframe, ends_finish rfl rfl rfl⟩

/-- What holds of the value and the flag written holds of the register and T afterwards. -/
theorem WritesRegT.completes {i : Instr} {s : State} {n : Reg} {v : Word} {b : Bool} (h : WritesRegT i s n v b)
    {P : Word → Bool → Prop} (hP : P v b) :
    Completes i s fun t => P (t.reg n) t.tBit ∧ Frame { regs := [n], srBits := [0] } s t ∧ Ends s t false :=
  h.imp fun _ ⟨hreg, ht, hframe, hends⟩ => ⟨hreg.symm ▸ ht.symm ▸ hP, hframe, hends⟩

/-! ### Words as numbers -/

theorem ofNat_toNat_add (x y : Word) : BitVec.ofNat 32 (x.toNat + y.toNat) = x + y := by
  rw [BitVec.ofNat_add, BitVec.ofNat_toNat, BitVec.ofNat_toNat, BitVec.setWidth_eq, BitVec.setWidth_eq]

theorem ofInt_toInt_add (x y : Word) : BitVec.ofInt 32 (x.toInt + y.toInt) = x + y := by
  rw [BitVec.ofInt_add, BitVec.ofInt_toInt, BitVec.ofInt_toInt]

theorem ofInt_toInt_neg (x : Word) : BitVec.ofInt 32 (-x.toInt) = 0 - x := by
  rw [BitVec.ofInt_neg, BitVec.ofInt_toInt]
  exact (BitVec.zero_sub x).symm

theorem ofInt_toInt_sub (x y : Word) : BitVec.ofInt 32 (x.toInt - y.toInt) = x - y := by
  rw [Int.sub_eq_add_neg, BitVec.ofInt_add, BitVec.ofInt_neg, BitVec.ofInt_toInt, BitVec.ofInt_toInt,
    BitVec.sub_eq_add_neg]

/-- The immediate of ADD #imm counts with its sign (R173). -/
theorem ofInt_toInt_addImm (x : Word) (imm : BitVec 8) :
    BitVec.ofInt 32 (x.toInt + imm.toInt) = x + sext8 imm := by
  rw [BitVec.ofInt_add, BitVec.ofInt_toInt]
  rfl

/-! ### Carry and borrow -/

theorem bit_le_one (b : Bool) : bit b ≤ 1 := by
  cases b <;> decide

theorem bit_decide (p : Prop) [Decidable p] : bit (decide p) = if p then 1 else 0 := by
  simp [bit]

/-- The sum of ADDC and its carry are the 33 bits of the exact sum (R174). -/
theorem add_carryOut (x y : Word) (t : Bool) :
    (x + y + BitVec.ofNat 32 (bit t)).toNat + 2 ^ 32 * bit (carryOut x y t) = x.toNat + y.toNat + bit t := by
  have ht := bit_le_one t
  have hx := x.isLt
  have hy := y.isLt
  rw [carryOut, bit_decide, BitVec.toNat_add, BitVec.toNat_add, BitVec.toNat_ofNat]
  split <;> omega

/-- The difference of SUBC, less 2^32 when it borrows, is the exact difference (R199). -/
theorem sub_borrowOut (x y : Word) (t : Bool) :
    (x - y - BitVec.ofNat 32 (bit t)).toNat + y.toNat + bit t = x.toNat + 2 ^ 32 * bit (borrowOut x y t) := by
  have ht := bit_le_one t
  have hx := x.isLt
  have hy := y.isLt
  rw [borrowOut, bit_decide, BitVec.toNat_sub, BitVec.toNat_sub, BitVec.toNat_ofNat]
  split <;> omega

/-- NEGC is SUBC from 0 (R197). -/
theorem neg_borrowOut (y : Word) (t : Bool) :
    (0 - y - BitVec.ofNat 32 (bit t)).toNat + y.toNat + bit t = 2 ^ 32 * bit (borrowOut 0 y t) :=
  (sub_borrowOut 0 y t).trans (Nat.zero_add _)

/-! ### Signed overflow -/

/-- A longword holds an integer exactly when the integer does not overflow: within the bounds it is kept, and what a
longword reads as is always within them. -/
theorem overflows32_eq_false_iff (i : Int) : overflows32 i = false ↔ (BitVec.ofInt 32 i).toInt = i := by
  have hbounds : overflows32 i = false ↔ -2 ^ 31 ≤ i ∧ i < 2 ^ 31 := by
    simp only [overflows32, Bool.or_eq_false_iff, decide_eq_false_iff_not]
    omega
  rw [hbounds]
  constructor
  · rintro ⟨hlo, hhi⟩
    exact BitVec.toInt_ofInt_eq_self (by decide) hlo hhi
  · intro h
    exact h ▸ ⟨BitVec.le_toInt _, BitVec.toInt_lt⟩

theorem addOverflows_eq_false_iff (x y : Word) :
    addOverflows x y = false ↔ (x + y).toInt = x.toInt + y.toInt := by
  rw [addOverflows, overflows32_eq_false_iff, ofInt_toInt_add]

theorem subOverflows_eq_false_iff (x y : Word) :
    subOverflows x y = false ↔ (x - y).toInt = x.toInt - y.toInt := by
  rw [subOverflows, overflows32_eq_false_iff, ofInt_toInt_sub]

/-! ### CMP/STR -/

/-- A byte of the exclusive or is 0 exactly where the two bytes agree. -/
theorem extractLsb'_xor_beq_zero (x y : Word) (k : Nat) :
    ((x ^^^ y).extractLsb' k 8 == 0) = decide (x.extractLsb' k 8 = y.extractLsb' k 8) := by
  rw [BitVec.extractLsb'_xor, Bool.eq_iff_iff, beq_iff_eq, decide_eq_true_iff]
  exact BitVec.xor_eq_zero_iff

theorem sameByteSomewhere_eq (x y : Word) :
    sameByteSomewhere x y =
      decide (∃ k : Fin 4, x.extractLsb' (8 * k.val) 8 = y.extractLsb' (8 * k.val) 8) := by
  simp only [sameByteSomewhere, extractLsb'_xor_beq_zero]
  rw [Bool.eq_iff_iff]
  simp only [Bool.or_eq_true, decide_eq_true_iff]
  constructor
  · rintro (((h | h) | h) | h)
    · exact ⟨3, h⟩
    · exact ⟨2, h⟩
    · exact ⟨1, h⟩
    · exact ⟨0, h⟩
  · rintro ⟨k, h⟩
    match k, h with
    | 3, h => exact .inl (.inl (.inl h))
    | 2, h => exact .inl (.inl (.inr h))
    | 1, h => exact .inl (.inr h)
    | 0, h => exact .inr h

/-! ### The division step -/

theorem div1Shifted_eq (x : Word) (t : Bool) : div1Shifted x t = (x <<< 1) ||| (if t then 1 else 0) := by
  rw [div1Shifted, movt_value]

/-- The meaning of DIV1 in the terms of R188: when m = n the divisor is the shifted Rn. -/
theorem exec_div1 (m n : Reg) (s : State) {x d r : Word} {q : Bool}
    (hx : x = (s.reg n <<< 1) ||| (if s.tBit then 1 else 0)) (hd : d = if m = n then x else s.reg m)
    (hr : r = div1Result x d s.qBit s.mBit)
    (hq : q = div1Q ((s.reg n).getLsbD 31) (div1Carry x d s.qBit s.mBit) s.mBit) :
    exec (.div1 m n) s = .next ((((s.setReg n x).setReg n r).setQ q).setT (q == s.mBit)).finish := by
  subst hr hq
  change execDiv1 m n s = _
  rw [execDiv1, div1Shifted_eq, ← hx, State.setReg_reg, ← hd]

/-! ### Codes that leave the usual formats -/

theorem decodeDigits_addImm (imm : BitVec 8) (n : Reg) :
    decodeDigits 0x7 n.toField (imm.extractLsb' 4 4) (imm.extractLsb' 0 4) = some (.addImm imm n) := by
  change some (Instr.addImm (imm.extractLsb' 4 4 ++ imm.extractLsb' 0 4) n) = _
  rw [field8_digits]

theorem decodeDigits_cmpEqImm (imm : BitVec 8) :
    decodeDigits 0x8 0x8 (imm.extractLsb' 4 4) (imm.extractLsb' 0 4) = some (.cmpEqImm imm) := by
  change some (Instr.cmpEqImm (imm.extractLsb' 4 4 ++ imm.extractLsb' 0 4)) = _
  rw [field8_digits]

/-! ### The obligations -/

/-- Settles O10: each meaning writes Rn and T, and the two together are the exact sum or difference. -/
theorem carryArithmetic : Obligations.CarryArithmetic := by
  refine ⟨fun s m n => ⟨?addc, ?subc, ?negc⟩, fun m n => ⟨?addcCode, ?subcCode, ?negcCode⟩⟩
  case addc =>
    exact (writesRegT_of_exec rfl).completes
      (P := fun v b => v.toNat + 2 ^ 32 * bit b = (s.reg n).toNat + (s.reg m).toNat + bit s.tBit)
      (add_carryOut (s.reg n) (s.reg m) s.tBit)
  case subc =>
    exact (writesRegT_of_exec rfl).completes
      (P := fun v b => v.toNat + (s.reg m).toNat + bit s.tBit = (s.reg n).toNat + 2 ^ 32 * bit b)
      (sub_borrowOut (s.reg n) (s.reg m) s.tBit)
  case negc =>
    exact (writesRegT_of_exec rfl).completes
      (P := fun v b => v.toNat + (s.reg m).toNat + bit s.tBit = 2 ^ 32 * bit b)
      (neg_borrowOut (s.reg m) s.tBit)
  case addcCode => exact hasCode_of_digits rfl rfl
  case subcCode => exact hasCode_of_digits rfl rfl
  case negcCode => exact hasCode_of_digits rfl rfl

/-- Settles O11: T is the overflow of the exact signed result, which the register holds exactly when it fits. -/
theorem overflowArithmetic : Obligations.OverflowArithmetic := by
  refine ⟨fun s m n => ⟨?addv, ?subv⟩, fun m n => ⟨?addvCode, ?subvCode⟩⟩
  case addv =>
    refine (writesRegT_of_exec rfl).imp fun t ⟨hreg, ht, hframe, hends⟩ => ⟨hreg, ?_, hframe, hends⟩
    rw [hreg, ht]
    exact addOverflows_eq_false_iff (s.reg n) (s.reg m)
  case subv =>
    refine (writesRegT_of_exec rfl).imp fun t ⟨hreg, ht, hframe, hends⟩ => ⟨hreg, ?_, hframe, hends⟩
    rw [hreg, ht]
    exact subOverflows_eq_false_iff (s.reg n) (s.reg m)
  case addvCode => exact hasCode_of_digits rfl rfl
  case subvCode => exact hasCode_of_digits rfl rfl

/-- Settles O9: each meaning is one register write and `finish`; the sums and differences of longwords are those of
their numbers modulo 2^32. -/
theorem plainArithmetic : Obligations.PlainArithmetic := by
  refine ⟨fun s m n imm => ⟨?add, ?addImm, ?extsB, ?extsW, ?extuB, ?extuW, ?neg, ?sub⟩,
    fun m n imm => ⟨?addCode, ?addImmCode, ?extsBCode, ?extsWCode, ?extuBCode, ?extuWCode, ?negCode, ?subCode⟩⟩
  case add => rw [ofNat_toNat_add]; exact writesReg_of_exec rfl
  case addImm => rw [ofInt_toInt_addImm]; exact writesReg_of_exec rfl
  case extsB => exact writesReg_of_exec rfl
  case extsW => exact writesReg_of_exec rfl
  case extuB => exact writesReg_of_exec rfl
  case extuW => exact writesReg_of_exec rfl
  case neg => rw [ofInt_toInt_neg]; exact writesReg_of_exec rfl
  case sub => rw [ofInt_toInt_sub]; exact writesReg_of_exec rfl
  case addCode => exact hasCode_of_digits rfl rfl
  case addImmCode => exact hasCode_of_field8 rfl (decodeDigits_addImm imm n)
  case extsBCode => exact hasCode_of_digits rfl rfl
  case extsWCode => exact hasCode_of_digits rfl rfl
  case extuBCode => exact hasCode_of_digits rfl rfl
  case extuWCode => exact hasCode_of_digits rfl rfl
  case negCode => exact hasCode_of_digits rfl rfl
  case subCode => exact hasCode_of_digits rfl rfl

/-- Settles O12: each meaning is one write to T and `finish`; only CMP/STR finds its relation by another way than the
statement's, through the exclusive or. -/
theorem comparisons : Obligations.Comparisons := by
  refine ⟨fun s m n imm => ⟨?eq, ?hs, ?ge, ?hi, ?gt, ?pl, ?pz, ?str, ?eqImm⟩,
    fun m n imm => ⟨?eqCode, ?hsCode, ?geCode, ?hiCode, ?gtCode, ?plCode, ?pzCode, ?strCode, ?eqImmCode⟩⟩
  case eq => exact writesT_of_exec rfl
  case hs => exact writesT_of_exec rfl
  case ge => exact writesT_of_exec rfl
  case hi => exact writesT_of_exec rfl
  case gt => exact writesT_of_exec rfl
  case pl => exact writesT_of_exec rfl
  case pz => exact writesT_of_exec rfl
  case str => rw [← sameByteSomewhere_eq]; exact writesT_of_exec rfl
  case eqImm => exact writesT_of_exec rfl
  case eqCode => exact hasCode_of_digits rfl rfl
  case hsCode => exact hasCode_of_digits rfl rfl
  case geCode => exact hasCode_of_digits rfl rfl
  case hiCode => exact hasCode_of_digits rfl rfl
  case gtCode => exact hasCode_of_digits rfl rfl
  case plCode => exact hasCode_of_field8 rfl rfl
  case pzCode => exact hasCode_of_field8 rfl rfl
  case strCode => exact hasCode_of_digits rfl rfl
  case eqImmCode => exact hasCode_of_field8 (a := 8) (b := 8) rfl (decodeDigits_cmpEqImm imm)

/-- Settles O13: Q, M and T are written one after the other, and a write to one leaves the other two. -/
theorem divisionStart : Obligations.DivisionStart := by
  refine ⟨fun s m n => ⟨?div0s, ?div0u⟩, fun m n => ⟨?div0sCode, ?div0uCode⟩⟩
  case div0s =>
    refine ⟨_, rfl, ?q, ?m, ?t, ?frame, ends_finish rfl rfl rfl⟩
    case q => simp
    case m => simp
    case t => simp
    case frame => exact ((((Frame.refl _ s).setQ (by decide) _).setM (by decide) _).setT (by decide) _).finish
  case div0u =>
    refine ⟨_, rfl, ?q, ?m, ?t, ?frame, ends_finish rfl rfl rfl⟩
    case q => simp
    case m => simp
    case t => simp
    case frame => exact ((((Frame.refl _ s).setM (by decide) _).setQ (by decide) _).setT (by decide) _).finish
  case div0sCode => exact hasCode_of_digits rfl rfl
  case div0uCode => exact hasCode_of_digits (a := 0) (b := 0) (c := 1) (d := 9) rfl rfl

/-- Settles O14: Rn is written twice, shifted and then with the new remainder, so that the divisor is read in
between. -/
theorem divisionStep : Obligations.DivisionStep := by
  refine ⟨fun s m n => ?div1, fun m n => hasCode_of_digits rfl rfl⟩
  intro x d r tmp1 q
  have hn : n ∈ [n] := List.mem_singleton_self n
  have hT : 0 ∈ [0, 8] := List.mem_cons_self
  have hQ : 8 ∈ [0, 8] := List.mem_cons_of_mem 0 (List.mem_singleton_self 8)
  refine ⟨_, exec_div1 m n s rfl rfl rfl rfl, ?reg, ?q, ?t, ?frame, ends_finish rfl rfl rfl⟩
  case reg => exact State.setReg_reg_same _ n r
  case q => exact (State.setT_qBit _ _).trans (State.setQ_qBit _ q)
  case t => exact State.setT_tBit _ _
  case frame => exact (((((Frame.refl _ s).setReg hn _).setReg hn _).setQ hQ _).setT hT _).finish

end Sys2Proof.Machine
end

