-- ==== Sys2Proof/Proofs/Multiply.lean ====
section
/-! PROOF. The family of spec/42_multiply.md.  First the frame under a write to MACH and MACL, and the two endings of a
multiplication: both halves of the accumulator, or MACL alone.  Then that a product of two w-bit numbers fits 2w bits,
signed and unsigned, which makes the products exact. -/
namespace Sys2Proof.Machine

/-! ### Meanings that write the accumulator -/

/-- MACL may be written when the frame names it. -/
theorem Frame.setMacl {w : Writes} {s t : State} (f : Frame w s t) (hmacl : w.macl = true) (v : Word) :
    Frame w s (t.setMacl v) :=
  { f with macl := fun h => absurd (hmacl.symm.trans h) (by decide) }

/-- MACH and MACL may be written together when the frame names both. -/
theorem Frame.setMac {w : Writes} {s t : State} (f : Frame w s t) (hmach : w.mach = true) (hmacl : w.macl = true)
    (v : BitVec 64) : Frame w s (t.setMac v) :=
  { f with
    mach := fun h => absurd (hmach.symm.trans h) (by decide)
    macl := fun h => absurd (hmacl.symm.trans h) (by decide) }

/-- The two halves written are the 64 bits read. -/
theorem State.setMac_mach_append_macl (s : State) (v : BitVec 64) :
    ((s.setMac v).mach ++ (s.setMac v).macl : BitVec 64) = v := by
  rw [State.setMac_mach, State.setMac_macl, BitVec.extractLsb'_append_extractLsb'_eq_extractLsb' (by rfl),
    BitVec.extractLsb'_eq_self]

/-- An instruction whose meaning is a write to MACL and `finish`: what holds of the value written holds of MACL
afterwards, and nothing else changes. -/
theorem completes_setMacl {i : Instr} {s : State} {v : Word} (h : exec i s = .next (s.setMacl v).finish)
    {P : Word → Prop} (hP : P v) :
    Completes i s fun t => P t.macl ∧ Frame { macl := true } s t ∧ Ends s t false :=
  ⟨_, h, hP, ((Frame.refl _ s).setMacl rfl v).finish, ends_finish rfl rfl rfl⟩

/-- What holds of the 64 bits written holds of MACH and MACL together afterwards, and nothing else changes. -/
theorem completes_setMac {i : Instr} {s : State} {v : BitVec 64} (h : exec i s = .next (s.setMac v).finish)
    {P : BitVec 64 → Prop} (hP : P v) :
    Completes i s fun t => P (t.mach ++ t.macl) ∧ Frame { mach := true, macl := true } s t ∧ Ends s t false := by
  have hmac : P ((s.setMac v).finish.mach ++ (s.setMac v).finish.macl) := (s.setMac_mach_append_macl v).symm ▸ hP
  exact ⟨_, h, hmac, ((Frame.refl _ s).setMac rfl rfl v).finish, ends_finish rfl rfl rfl⟩

/-! ### Products of twice the width -/

/-- A signed product lies within ±2^(2w-2), so 2w bits hold it with its sign. -/
theorem toInt_ofInt_mul {w : Nat} (hw : 0 < w) (x y : BitVec w) :
    (BitVec.ofInt (w * 2) (x.toInt * y.toInt)).toInt = x.toInt * y.toInt := by
  have hpow : (2 : Int) ^ (w * 2 - 2) < 2 ^ (w * 2 - 1) := pow_lt_pow_right₀ (by decide) (by omega)
  have hlo : -2 ^ (w * 2 - 2) ≤ x.toInt * y.toInt := BitVec.le_toInt_mul_toInt
  have hhi : x.toInt * y.toInt ≤ 2 ^ (w * 2 - 2) := BitVec.toInt_mul_toInt_le
  exact BitVec.toInt_ofInt_eq_self (by omega) (by omega) (by omega)

/-- An unsigned product is below 2^(2w). -/
theorem toNat_ofNat_mul {w : Nat} (x y : BitVec w) :
    (BitVec.ofNat (w * 2) (x.toNat * y.toNat)).toNat = x.toNat * y.toNat := by
  rw [BitVec.toNat_ofNat, Nat.mod_eq_of_lt BitVec.toNat_mul_toNat_lt]

/-! ### The multiplications of the SH-2 -/

theorem exec_dmulsL_sh2 {s : State} (hcpu : s.cfg.cpu = .sh2) (m n : Reg) :
    exec (.dmulsL m n) s = .next (s.setMac (BitVec.ofInt 64 ((s.reg n).toInt * (s.reg m).toInt))).finish :=
  State.onSh2_sh2 hcpu _

theorem exec_dmuluL_sh2 {s : State} (hcpu : s.cfg.cpu = .sh2) (m n : Reg) :
    exec (.dmuluL m n) s = .next (s.setMac (BitVec.ofNat 64 ((s.reg n).toNat * (s.reg m).toNat))).finish :=
  State.onSh2_sh2 hcpu _

theorem exec_mulL_sh2 {s : State} (hcpu : s.cfg.cpu = .sh2) (m n : Reg) :
    exec (.mulL m n) s = .next (s.setMacl (s.reg n * s.reg m)).finish :=
  State.onSh2_sh2 hcpu _

/-! ### The obligation -/

/-- Settles O17: each meaning writes one product to the accumulator, which the accumulator holds exactly because it has
twice the width of the factors; only MUL.L keeps the product modulo 2^32. -/
theorem multiplications : Obligations.Multiplications := by
  refine ⟨fun s m n => ⟨fun hcpu => ⟨?dmulsL, ?dmuluL, ?mulL⟩, ?mulsW, ?muluW⟩,
    fun m n => ⟨?dmulsLCode, ?dmuluLCode, ?mulLCode, ?mulsWCode, ?muluWCode⟩⟩
  case dmulsL =>
    exact completes_setMac (exec_dmulsL_sh2 hcpu m n) (P := fun v => v.toInt = (s.reg n).toInt * (s.reg m).toInt)
      (toInt_ofInt_mul (by decide) (s.reg n) (s.reg m))
  case dmuluL =>
    exact completes_setMac (exec_dmuluL_sh2 hcpu m n) (P := fun v => v.toNat = (s.reg n).toNat * (s.reg m).toNat)
      (toNat_ofNat_mul (s.reg n) (s.reg m))
  case mulL =>
    exact completes_setMacl (exec_mulL_sh2 hcpu m n)
      (P := fun v => v.toNat = (s.reg n).toNat * (s.reg m).toNat % 2 ^ 32) (BitVec.toNat_mul (s.reg n) (s.reg m))
  case mulsW =>
    exact completes_setMacl rfl
      (P := fun v => v.toInt = (lowHalf (s.reg n)).toInt * (lowHalf (s.reg m)).toInt)
      (toInt_ofInt_mul (by decide) (lowHalf (s.reg n)) (lowHalf (s.reg m)))
  case muluW =>
    exact completes_setMacl rfl
      (P := fun v => v.toNat = (lowHalf (s.reg n)).toNat * (lowHalf (s.reg m)).toNat)
      (toNat_ofNat_mul (lowHalf (s.reg n)) (lowHalf (s.reg m)))
  case dmulsLCode => exact hasCode_of_digits rfl rfl
  case dmuluLCode => exact hasCode_of_digits rfl rfl
  case mulLCode => exact hasCode_of_digits rfl rfl
  case mulsWCode => exact hasCode_of_digits rfl rfl
  case muluWCode => exact hasCode_of_digits rfl rfl

end Sys2Proof.Machine
end

