-- ==== Sys2Proof/Proofs/Logic.lean ====
section
/-! PROOF. The family of spec/43_logic.md.  First what a byte access answers when it may be made, and the frame under
the store of a byte: the rules for memory that the family adds to those for registers and T.  Then the read, combination
and write back of the byte at `@(R0,GBR)`, proved once for every way of combining, and the codes with an immediate. -/
namespace Sys2Proof.Machine

/-! ### Byte accesses -/

theorem State.readByte_of_can {s : State} {a : Word} (h : s.can .read 1 a) : s.readByte a = .ok (s.mem.byte a) :=
  State.readByte_ok.mpr ⟨h.2, rfl⟩

theorem State.writeByte_of_can {s : State} {a : Word} (h : s.can .write 1 a) (v : Byte) :
    s.writeByte a v = .ok (s.stored a 1 (s.mem.setByte a v)) :=
  State.writeByte_ok.mpr ⟨h.2, rfl⟩

/-- The first address of a range lies in it. -/
theorem inRange_first (a : Word) {bytes : Nat} (h : 0 < bytes) : inRange a (a, bytes) := by
  rw [inRange, BitVec.sub_self]
  exact h

/-- A byte that the frame names may be stored. -/
theorem Frame.storedByte {w : Writes} {s t : State} (f : Frame w s t) {a : Word} (ha : (a, 1) ∈ w.mem) (v : Byte) :
    Frame w s (t.stored a 1 (t.mem.setByte a v)) :=
  { f with
    mem := fun b hb => by
      have hne : b ≠ a := fun h => hb (a, 1) ha (h ▸ inRange_first b Nat.one_pos)
      rw [State.stored_mem, Memory.byte_setByte_ne t.mem v hne, f.mem b hb] }

/-! ### Read, combined, written back -/

/-- When the byte at `@(R0,GBR)` may be read and written, nothing stands in the way of the store. -/
theorem State.modifyGbrByte_of_can {s : State} (hread : s.can .read 1 s.eaGbrIndexed)
    (hwrite : s.can .write 1 s.eaGbrIndexed) (f : Byte → Byte) :
    s.modifyGbrByte f =
      .next (s.stored s.eaGbrIndexed 1 (s.mem.setByte s.eaGbrIndexed (f (s.mem.byte s.eaGbrIndexed)))).finish := by
  rw [State.modifyGbrByte, State.readByte_of_can hread, State.onAccess_ok, State.writeByte_of_can hwrite,
    State.onAccess_ok]

/-- An instruction that combines the byte at `@(R0,GBR)` changes that byte and nothing else. -/
theorem completes_modifyGbrByte {i : Instr} {s : State} {f : Byte → Byte} (h : exec i s = s.modifyGbrByte f)
    (hread : s.can .read 1 (s.gbr + s.reg 0)) (hwrite : s.can .write 1 (s.gbr + s.reg 0)) :
    Completes i s fun t =>
      t.mem.byte (s.gbr + s.reg 0) = f (s.mem.byte (s.gbr + s.reg 0)) ∧
      Frame { mem := [(s.gbr + s.reg 0, 1)] } s t ∧ Ends s t false := by
  refine ⟨_, h.trans (State.modifyGbrByte_of_can hread hwrite f), ?byte, ?frame, ends_finish rfl rfl rfl⟩
  case byte => exact Memory.byte_setByte_same s.mem _ _
  case frame => exact ((Frame.refl _ s).storedByte (List.mem_singleton_self _) _).finish

/-- TST.B reads the byte and writes T. -/
theorem exec_tstB {s : State} (hread : s.can .read 1 s.eaGbrIndexed) (imm : BitVec 8) :
    exec (.tstB imm) s = .next (s.setT (s.mem.byte s.eaGbrIndexed &&& imm == 0)).finish := by
  change execTstB imm s = _
  rw [execTstB, State.readByte_of_can hread, State.onAccess_ok]

/-! ### Codes with an immediate -/

/-- The code of an instruction `op imm`, when the decoder puts the immediate together from the low two digits. -/
theorem hasCode_of_imm8 (op : BitVec 8 → Instr) (a b : BitVec 4) (imm : BitVec 8)
    (henc : encodeWord (op imm) = code a b (imm.extractLsb' 4 4) (imm.extractLsb' 0 4))
    (hdec : decodeDigits a b (imm.extractLsb' 4 4) (imm.extractLsb' 0 4) =
      some (op (imm.extractLsb' 4 4 ++ imm.extractLsb' 0 4))) : HasCode (op imm) (a ++ b ++ imm) := by
  rw [field8_digits] at hdec
  exact hasCode_of_field8 henc hdec

/-! ### The obligations -/

/-- Settles O21: each meaning is one register write, or for TST one write to T, and `finish`. -/
theorem logicOnRegisters : Obligations.LogicOnRegisters := by
  refine ⟨fun s m n imm => ⟨?and, ?andImm, ?not, ?or, ?orImm, ?xor, ?xorImm, ?tst, ?tstImm⟩,
    fun m n imm =>
      ⟨?andCode, ?andImmCode, ?notCode, ?orCode, ?orImmCode, ?xorCode, ?xorImmCode, ?tstCode, ?tstImmCode⟩⟩
  case and => exact writesReg_of_exec rfl
  case andImm => exact writesReg_of_exec rfl
  case not => exact writesReg_of_exec rfl
  case or => exact writesReg_of_exec rfl
  case orImm => exact writesReg_of_exec rfl
  case xor => exact writesReg_of_exec rfl
  case xorImm => exact writesReg_of_exec rfl
  case tst => exact writesT_of_exec rfl
  case tstImm => exact writesT_of_exec rfl
  case andCode => exact hasCode_of_digits rfl rfl
  case andImmCode => exact hasCode_of_imm8 .andImm 0xC 0x9 imm rfl rfl
  case notCode => exact hasCode_of_digits rfl rfl
  case orCode => exact hasCode_of_digits rfl rfl
  case orImmCode => exact hasCode_of_imm8 .orImm 0xC 0xB imm rfl rfl
  case xorCode => exact hasCode_of_digits rfl rfl
  case xorImmCode => exact hasCode_of_imm8 .xorImm 0xC 0xA imm rfl rfl
  case tstCode => exact hasCode_of_digits rfl rfl
  case tstImmCode => exact hasCode_of_imm8 .tstImm 0xC 0x8 imm rfl rfl

/-- Settles O22: AND.B, OR.B and XOR.B are one operation with three ways of combining; TST.B goes no further than the
read. -/
theorem logicOnMemory : Obligations.LogicOnMemory := by
  refine ⟨fun s imm => ⟨fun hread hwrite => ⟨?andB, ?orB, ?xorB⟩, fun hread => ?tstB⟩,
    fun imm => ⟨?andBCode, ?orBCode, ?xorBCode, ?tstBCode⟩⟩
  case andB => exact completes_modifyGbrByte (f := (· &&& imm)) rfl hread hwrite
  case orB => exact completes_modifyGbrByte (f := (· ||| imm)) rfl hread hwrite
  case xorB => exact completes_modifyGbrByte (f := (· ^^^ imm)) rfl hread hwrite
  case tstB => exact writesT_of_exec (exec_tstB hread imm)
  case andBCode => exact hasCode_of_imm8 .andB 0xC 0xD imm rfl rfl
  case orBCode => exact hasCode_of_imm8 .orB 0xC 0xF imm rfl rfl
  case xorBCode => exact hasCode_of_imm8 .xorB 0xC 0xE imm rfl rfl
  case tstBCode => exact hasCode_of_imm8 .tstB 0xC 0xC imm rfl rfl

end Sys2Proof.Machine
end

