-- ==== Sys2Proof/Proofs/Shift.lean ====
section
/-! PROOF. The family of spec/44_shift.md.  A shift or rotation by one bit puts 31 bits of Rn next to one bit that
enters.  First what such a word is bit by bit, once to the left and once to the right; then that every meaning has this
form, the plain shifts with the bit 0 and the others with a bit of Rn or with T.  The shifts by 2, 8 and 16 are the
products and quotients by powers of two. -/
namespace Sys2Proof.Machine

/-! ### One bit enters, the other 31 move -/

/-- To the left every bit moves one place up. -/
theorem getLsbD_append_oneBit_succ (x : Word) (low : Bool) {j : Nat} (hj : j < 31) :
    (x.extractLsb' 0 31 ++ oneBit low : Word).getLsbD (j + 1) = x.getLsbD j := by
  rw [BitVec.getLsbD_append, if_neg (by omega), BitVec.getLsbD_extractLsb', Nat.add_sub_cancel, decide_eq_true hj,
    Bool.true_and, Nat.zero_add]

/-- To the left the new bit enters at bit 0. -/
theorem getLsbD_append_oneBit_zero (x : Word) (low : Bool) :
    (x.extractLsb' 0 31 ++ oneBit low : Word).getLsbD 0 = low := by
  rw [BitVec.getLsbD_append, if_pos Nat.one_pos, oneBit, BitVec.getLsbD_ofBool, decide_eq_true rfl, Bool.true_and]

/-- To the right every bit moves one place down. -/
theorem getLsbD_oneBit_append (x : Word) (high : Bool) {j : Nat} (hj : j < 31) :
    (oneBit high ++ x.extractLsb' 1 31 : Word).getLsbD j = x.getLsbD (j + 1) := by
  rw [BitVec.getLsbD_append, if_pos hj, BitVec.getLsbD_extractLsb', decide_eq_true hj, Bool.true_and, Nat.add_comm]

/-- To the right the new bit enters at bit 31. -/
theorem getLsbD_oneBit_append_last (x : Word) (high : Bool) :
    (oneBit high ++ x.extractLsb' 1 31 : Word).getLsbD 31 = high := by
  rw [BitVec.getLsbD_append, if_neg (Nat.lt_irrefl 31), oneBit, BitVec.getLsbD_ofBool, decide_eq_true (Nat.sub_self 31),
    Bool.true_and]

/-! ### The plain shifts in this form -/

/-- A plain shift to the left lets 0 enter (R266, R268). -/
theorem shiftLeft_one_eq (x : Word) : x <<< 1 = x.extractLsb' 0 31 ++ oneBit false :=
  BitVec.shiftLeft_eq_concat_of_lt (by decide)

/-- A plain shift to the right lets 0 enter (R269). -/
theorem ushiftRight_one_eq (x : Word) : x >>> 1 = oneBit false ++ x.extractLsb' 1 31 :=
  BitVec.ushiftRight_eq_extractLsb'_of_lt (by decide)

/-- One bit cut out of a word is the bit that the rotations and SHAR let enter (R262, R263, R267). -/
theorem extractLsb'_one_eq_oneBit (x : Word) (i : Nat) : x.extractLsb' i 1 = oneBit (x.getLsbD i) := by
  refine BitVec.eq_of_getLsbD_eq fun j hj => ?_
  obtain rfl : j = 0 := Nat.lt_one_iff.mp hj
  rw [oneBit, BitVec.getLsbD_ofBool, BitVec.getLsbD_extractLsb', Nat.add_zero, decide_eq_true hj, decide_eq_true rfl]

/-! ### Meanings that shift by one bit -/

/-- An instruction whose meaning lets `low` enter on the right of Rn and writes bit 31 to T shifts to the left. -/
theorem shiftsLeft_of_exec {i : Instr} {s : State} {n : Reg} {low : Bool}
    (h : exec i s = .next (s.shifted n ((s.reg n).extractLsb' 0 31 ++ oneBit low) (msb (s.reg n))).finish) :
    ShiftsLeft i s n low :=
  (writesRegT_of_exec h).imp fun _ ⟨hreg, ht, hframe, hends⟩ =>
    ⟨fun _ hj => hreg.symm ▸ getLsbD_append_oneBit_succ (s.reg n) low hj,
      hreg.symm ▸ getLsbD_append_oneBit_zero (s.reg n) low, ht, hframe, hends⟩

/-- An instruction whose meaning lets `high` enter on the left of Rn and writes bit 0 to T shifts to the right. -/
theorem shiftsRight_of_exec {i : Instr} {s : State} {n : Reg} {high : Bool}
    (h : exec i s = .next (s.shifted n (oneBit high ++ (s.reg n).extractLsb' 1 31) (lsb (s.reg n))).finish) :
    ShiftsRight i s n high :=
  (writesRegT_of_exec h).imp fun _ ⟨hreg, ht, hframe, hends⟩ =>
    ⟨fun _ hj => hreg.symm ▸ getLsbD_oneBit_append (s.reg n) high hj,
      hreg.symm ▸ getLsbD_oneBit_append_last (s.reg n) high, ht, hframe, hends⟩

/-! ### Shifts as products and quotients -/

theorem shiftLeft_eq_ofNat_mul (x : Word) (k : Nat) : x <<< k = BitVec.ofNat 32 (x.toNat * 2 ^ k) := by
  rw [← Nat.shiftLeft_eq]
  rfl

theorem ushiftRight_eq_ofNat_div (x : Word) (k : Nat) : x >>> k = BitVec.ofNat 32 (x.toNat / 2 ^ k) := by
  rw [← Nat.shiftRight_eq_div_pow, ← BitVec.toNat_ushiftRight, BitVec.ofNat_toNat, BitVec.setWidth_eq]

/-! ### The obligations -/

/-- Settles O24: each meaning is brought to the form of one bit that enters next to 31 bits of Rn. -/
theorem oneBitShifts : Obligations.OneBitShifts := by
  refine ⟨fun s n => ⟨?rotl, ?rotcl, ?shal, ?shll, ?rotr, ?rotcr, ?shar, ?shlr⟩,
    fun n => ⟨?rotlCode, ?rotclCode, ?shalCode, ?shllCode, ?rotrCode, ?rotcrCode, ?sharCode, ?shlrCode⟩⟩
  case rotl => exact shiftsLeft_of_exec (by rw [← extractLsb'_one_eq_oneBit]; rfl)
  case rotcl => exact shiftsLeft_of_exec rfl
  case shal => exact shiftsLeft_of_exec (by rw [← shiftLeft_one_eq]; rfl)
  case shll => exact shiftsLeft_of_exec (by rw [← shiftLeft_one_eq]; rfl)
  case rotr => exact shiftsRight_of_exec (by rw [← extractLsb'_one_eq_oneBit]; rfl)
  case rotcr => exact shiftsRight_of_exec rfl
  case shar => exact shiftsRight_of_exec (by rw [← extractLsb'_one_eq_oneBit]; rfl)
  case shlr => exact shiftsRight_of_exec (by rw [← ushiftRight_one_eq]; rfl)
  case rotlCode => exact hasCode_of_field8 rfl rfl
  case rotclCode => exact hasCode_of_field8 rfl rfl
  case shalCode => exact hasCode_of_field8 rfl rfl
  case shllCode => exact hasCode_of_field8 rfl rfl
  case rotrCode => exact hasCode_of_field8 rfl rfl
  case rotcrCode => exact hasCode_of_field8 rfl rfl
  case sharCode => exact hasCode_of_field8 rfl rfl
  case shlrCode => exact hasCode_of_field8 rfl rfl

/-- Settles O25: each meaning is one register write and `finish`, and a shift by k multiplies or divides by 2^k. -/
theorem multiBitShifts : Obligations.MultiBitShifts := by
  refine ⟨fun s n => ⟨?shll2, ?shll8, ?shll16, ?shlr2, ?shlr8, ?shlr16⟩,
    fun n => ⟨?shll2Code, ?shll8Code, ?shll16Code, ?shlr2Code, ?shlr8Code, ?shlr16Code⟩⟩
  case shll2 => rw [← shiftLeft_eq_ofNat_mul]; exact writesReg_of_exec rfl
  case shll8 => rw [← shiftLeft_eq_ofNat_mul]; exact writesReg_of_exec rfl
  case shll16 => rw [← shiftLeft_eq_ofNat_mul]; exact writesReg_of_exec rfl
  case shlr2 => rw [← ushiftRight_eq_ofNat_div]; exact writesReg_of_exec rfl
  case shlr8 => rw [← ushiftRight_eq_ofNat_div]; exact writesReg_of_exec rfl
  case shlr16 => rw [← ushiftRight_eq_ofNat_div]; exact writesReg_of_exec rfl
  case shll2Code => exact hasCode_of_field8 rfl rfl
  case shll8Code => exact hasCode_of_field8 rfl rfl
  case shll16Code => exact hasCode_of_field8 rfl rfl
  case shlr2Code => exact hasCode_of_field8 rfl rfl
  case shlr8Code => exact hasCode_of_field8 rfl rfl
  case shlr16Code => exact hasCode_of_field8 rfl rfl

end Sys2Proof.Machine
end

/-! PROOF. The family of spec/46_system_control.md.  To the endings of an ordinary instruction the family adds the one of
an interrupt-disabled instruction: the same advance of the pc, and no interrupt before the next instruction.  With it a
store of a control or system register to Rn is one register write. -/
namespace Sys2Proof.Machine

/-! ### The end of an interrupt-disabled instruction (R344) -/

/-- The two ends of an instruction differ in the inhibition alone, of which a frame does not speak. -/
theorem Frame.finishInhibit {w : Writes} {s t : State} (f : Frame w s t) : Frame w s t.finishInhibit := { f with }

/-- `finishInhibit` ends the instruction as `finish` does, and accepts no interrupt before the next one. -/
theorem ends_finishInhibit {s t : State} (hpc : t.pc = s.pc) (hdelay : t.delayTarget = s.delayTarget)
    (hpower : t.power = s.power) : Ends s t.finishInhibit true :=
  { ends_finish hpc hdelay hpower with intInhibit := rfl }

/-- An instruction whose meaning is one register write and `finishInhibit` writes that register and nothing else. -/
theorem completes_setReg_finishInhibit {i : Instr} {s : State} {n : Reg} {v : Word}
    (h : exec i s = .next (s.setReg n v).finishInhibit) :
    Completes i s fun t => t.reg n = v ∧ Frame { regs := [n] } s t ∧ Ends s t true := by
  have hframe : Frame { regs := [n] } s (s.setReg n v).finishInhibit :=
    ((Frame.refl _ s).setReg (List.mem_singleton_self n) v).finishInhibit
  exact ⟨_, h, State.setReg_reg_same s n v, hframe, ends_finishInhibit rfl rfl rfl⟩

/-! ### CLRMAC -/

/-- CLRMAC writes the 64 bits of the accumulator at once; each half of them is 0. -/
theorem completes_clrmac (s : State) :
    Completes .clrmac s fun t =>
      t.mach = 0 ∧ t.macl = 0 ∧ Frame { mach := true, macl := true } s t ∧ Ends s t false := by
  have hmach : (s.setMac 0).mach = 0 := BitVec.extractLsb'_zero
  have hmacl : (s.setMac 0).macl = 0 := BitVec.extractLsb'_zero
  exact ⟨_, rfl, hmach, hmacl, ((Frame.refl _ s).setMac rfl rfl 0).finish, ends_finish rfl rfl rfl⟩

/-! ### The obligations -/

/-- Settles O32: CLRT and SETT are one write to T and `finish`, CLRMAC one write to the accumulator, NOP is `finish`
alone; the four codes have no operand, so their digits are written out. -/
theorem clearSetNop : Obligations.ClearSetNop := by
  refine ⟨fun s => ⟨?clrt, ?sett, completes_clrmac s, ?nop⟩, ?clrtCode, ?settCode, ?clrmacCode, ?nopCode⟩
  case clrt => exact writesT_of_exec rfl
  case sett => exact writesT_of_exec rfl
  case nop => exact ⟨_, rfl, (Frame.refl _ s).finish, ends_finish rfl rfl rfl⟩
  case clrtCode => exact hasCode_of_digits (a := 0) (b := 0) (c := 0) (d := 8) rfl rfl
  case settCode => exact hasCode_of_digits (a := 0) (b := 0) (c := 1) (d := 8) rfl rfl
  case clrmacCode => exact hasCode_of_digits (a := 0) (b := 0) (c := 2) (d := 8) rfl rfl
  case nopCode => exact hasCode_of_digits (a := 0) (b := 0) (c := 0) (d := 9) rfl rfl

/-- Settles O35: each meaning is one register write and `finishInhibit`; MACH is copied as it is held, on the SH-1
too. -/
theorem controlStores : Obligations.ControlStores := by
  refine ⟨fun s n => ⟨?stcSr, ?stcGbr, ?stcVbr, ?stsMach, ?stsMacl, ?stsPr⟩,
    fun n => ⟨?stcSrCode, ?stcGbrCode, ?stcVbrCode, ?stsMachCode, ?stsMaclCode, ?stsPrCode⟩⟩
  case stcSr => exact completes_setReg_finishInhibit rfl
  case stcGbr => exact completes_setReg_finishInhibit rfl
  case stcVbr => exact completes_setReg_finishInhibit rfl
  case stsMach => exact completes_setReg_finishInhibit rfl
  case stsMacl => exact completes_setReg_finishInhibit rfl
  case stsPr => exact completes_setReg_finishInhibit rfl
  case stcSrCode => exact hasCode_of_field8 rfl rfl
  case stcGbrCode => exact hasCode_of_field8 rfl rfl
  case stcVbrCode => exact hasCode_of_field8 rfl rfl
  case stsMachCode => exact hasCode_of_field8 rfl rfl
  case stsMaclCode => exact hasCode_of_field8 rfl rfl
  case stsPrCode => exact hasCode_of_field8 rfl rfl

end Sys2Proof.Machine

section
/-! PROOF. The encoder and the decoder (spec/30_encoding.md R103 to R111).  Both go through the four digits of a code.
One lemma says of every instruction that the decoder finds it in the digits the encoder gave it; with it a statement
about a code is a statement about the encoder alone.  The other says of every quadruple of digits that the encoder
gives back those it decodes, group by group of the operation code map. -/
namespace Sys2Proof.Machine

/-! ### From an instruction to its code and back -/

/-- The decoder finds the instruction in the digits that the encoder gave it.  The instructions fall into the formats of
their operands: register numbers and 4-bit fields are digits themselves, an 8-bit or a 12-bit field is put together
from its digits again; MOVT stands alone, for the decoder looks at its register before it. -/
theorem decodeDigits_encodeWord (i : Instr) :
    ∃ a b c d, encodeWord i = code a b c d ∧ decodeDigits a b c d = some i := by
  cases i with
  | movt n => exact ⟨_, _, _, _, rfl, decodeDigits_movt n⟩
  | movImm f n | movWPc f n | movLPc f n | addImm f n =>
    refine ⟨_, _, _, _, rfl, ?_⟩
    conv_rhs => rw [← field8_digits f]
    rfl
  | movBStoreGbr f | movWStoreGbr f | movLStoreGbr f | movBLoadGbr f | movWLoadGbr f | movLLoadGbr f | mova f
  | cmpEqImm f | andImm f | andB f | orImm f | orB f | tstImm f | tstB f | xorImm f | xorB f | bf f | bfS f | bt f
  | btS f | trapa f =>
    refine ⟨_, _, _, _, rfl, ?_⟩
    conv_rhs => rw [← field8_digits f]
    rfl
  | bra f | bsr f =>
    refine ⟨_, _, _, _, rfl, ?_⟩
    conv_rhs => rw [← field12_digits f]
    rfl
  | _ => exact ⟨_, _, _, _, rfl, rfl⟩

/-- A CPU that has the instruction decodes its code to it, and one that has not refuses the code by name. -/
theorem decodeWord_encodeWord (cpu : Cpu) (i : Instr) :
    decodeWord cpu (encodeWord i) = if i.wellFormed cpu then .ok i else .error (.notOnThisCpu (encodeWord i)) := by
  obtain ⟨a, b, c, d, henc, hdec⟩ := decodeDigits_encodeWord i
  rw [henc, decodeWord_code, hdec]

/-- Since the decoder undoes the encoder, an instruction has the code that the encoder gives it. -/
theorem hasCode_of_encodeWord {i : Instr} {w : Half} (h : encodeWord i = w) : HasCode i w := by
  refine ⟨h, fun cpu hwf => ?_⟩
  rw [← h, decodeWord_encodeWord, if_pos hwf]

/-- Settles O51: the two bytes of the code are the code, and the decoder undoes the encoder. -/
theorem decodeOfEncode : Obligations.DecodeOfEncode := by
  intro cpu i rest hwf
  have hword : decodeWord cpu ((encodeWord i).extractLsb' 8 8 ++ (encodeWord i).extractLsb' 0 8) = .ok i := by
    rw [bytes_append, decodeWord_encodeWord, if_pos hwf]
  simp only [encodeBytes, List.cons_append, List.nil_append, decode, hword]

/-! ### From a code to its instruction and back -/

/-- A digit is one of sixteen: the decoder's groups are told apart along them. -/
theorem digitCases {P : BitVec 4 → Prop} (d : BitVec 4) (d0 : P 0) (d1 : P 1) (d2 : P 2) (d3 : P 3) (d4 : P 4)
    (d5 : P 5) (d6 : P 6) (d7 : P 7) (d8 : P 8) (d9 : P 9) (dA : P 0xA) (dB : P 0xB) (dC : P 0xC) (dD : P 0xD)
    (dE : P 0xE) (dF : P 0xF) : P d := by
  have h : ∀ e : BitVec 4, e = 0 ∨ e = 1 ∨ e = 2 ∨ e = 3 ∨ e = 4 ∨ e = 5 ∨ e = 6 ∨ e = 7 ∨ e = 8 ∨ e = 9 ∨ e = 0xA ∨
      e = 0xB ∨ e = 0xC ∨ e = 0xD ∨ e = 0xE ∨ e = 0xF := by
    decide
  rcases h d with rfl | rfl | rfl | rfl | rfl | rfl | rfl | rfl | rfl | rfl | rfl | rfl | rfl | rfl | rfl | rfl <;>
    assumption

/-- The digits of an 8-bit field are those it was put together from. -/
@[simp] theorem digit1_append (c d : BitVec 4) : (c ++ d : BitVec 8).extractLsb' 4 4 = c := by
  rw [BitVec.extractLsb'_append_eq_of_le (by omega)]
  exact BitVec.extractLsb'_eq_self

@[simp] theorem digit0_append (c d : BitVec 4) : (c ++ d : BitVec 8).extractLsb' 0 4 = d := by
  rw [BitVec.extractLsb'_append_eq_of_add_le (by omega)]
  exact BitVec.extractLsb'_eq_self

/-- The digits of a 12-bit field are those it was put together from. -/
@[simp] theorem field12_digit2 (b c d : BitVec 4) : (b ++ c ++ d : BitVec 12).extractLsb' 8 4 = b := by
  rw [BitVec.extractLsb'_append_eq_of_le (by omega)]
  exact digit1_append b c

@[simp] theorem field12_digit1 (b c d : BitVec 4) : (b ++ c ++ d : BitVec 12).extractLsb' 4 4 = c := by
  rw [BitVec.extractLsb'_append_eq_of_le (by omega)]
  exact digit0_append b c

@[simp] theorem field12_digit0 (b c d : BitVec 4) : (b ++ c ++ d : BitVec 12).extractLsb' 0 4 = d := by
  rw [BitVec.extractLsb'_append_eq_of_add_le (by omega)]
  exact BitVec.extractLsb'_eq_self

theorem encodeWord_of_decodeGroup0 {b c d : BitVec 4} {i : Instr} (h : decodeGroup0 b c d = some i) :
    encodeWord i = code 0 b c d := by
  induction d using digitCases
  case d2 => induction c using digitCases <;> cases h <;> rfl
  case d3 => induction c using digitCases <;> cases h <;> rfl
  case dA => induction c using digitCases <;> cases h <;> rfl
  case d8 =>
    induction b using digitCases
    case d0 => induction c using digitCases <;> cases h <;> rfl
    all_goals cases h
  case dB =>
    induction b using digitCases
    case d0 => induction c using digitCases <;> cases h <;> rfl
    all_goals cases h
  case d9 => induction b using digitCases <;> induction c using digitCases <;> cases h <;> rfl
  all_goals cases h <;> rfl

theorem encodeWord_of_decodeGroup2 {b c d : BitVec 4} {i : Instr} (h : decodeGroup2 b c d = some i) :
    encodeWord i = code 2 b c d := by
  induction d using digitCases <;> cases h <;> rfl

theorem encodeWord_of_decodeGroup3 {b c d : BitVec 4} {i : Instr} (h : decodeGroup3 b c d = some i) :
    encodeWord i = code 3 b c d := by
  induction d using digitCases <;> cases h <;> rfl

theorem encodeWord_of_decodeGroup4F0 {b d : BitVec 4} {i : Instr} (h : decodeGroup4F0 b d = some i) :
    encodeWord i = code 4 b 0 d := by
  induction d using digitCases <;> cases h <;> rfl

theorem encodeWord_of_decodeGroup4F1 {b d : BitVec 4} {i : Instr} (h : decodeGroup4F1 b d = some i) :
    encodeWord i = code 4 b 1 d := by
  induction d using digitCases <;> cases h <;> rfl

theorem encodeWord_of_decodeGroup4F2 {b d : BitVec 4} {i : Instr} (h : decodeGroup4F2 b d = some i) :
    encodeWord i = code 4 b 2 d := by
  induction d using digitCases <;> cases h <;> rfl

/-- MAC.W is found by its last digit alone; the other codes of the group by the digit before it. -/
theorem encodeWord_of_decodeGroup4 {b c d : BitVec 4} {i : Instr} (h : decodeGroup4 b c d = some i) :
    encodeWord i = code 4 b c d := by
  by_cases hd : d = 0xF
  · subst hd
    cases h
    rfl
  · have hrest : decodeGroup4 b c d = match c.toNat with
        | 0 => decodeGroup4F0 b d
        | 1 => decodeGroup4F1 b d
        | 2 => decodeGroup4F2 b d
        | _ => none := by
      induction d using digitCases
      case dF => exact absurd rfl hd
      all_goals rfl
    rw [hrest] at h
    induction c using digitCases
    case d0 => exact encodeWord_of_decodeGroup4F0 h
    case d1 => exact encodeWord_of_decodeGroup4F1 h
    case d2 => exact encodeWord_of_decodeGroup4F2 h
    all_goals cases h

theorem encodeWord_of_decodeGroup6 {b c d : BitVec 4} {i : Instr} (h : decodeGroup6 b c d = some i) :
    encodeWord i = code 6 b c d := by
  induction d using digitCases <;> cases h <;> rfl

theorem encodeWord_of_decodeGroup8 {b c d : BitVec 4} {i : Instr} (h : decodeGroup8 b c d = some i) :
    encodeWord i = code 8 b c d := by
  induction b using digitCases <;> cases h <;> simp [encodeWord]

theorem encodeWord_of_decodeGroupC {b c d : BitVec 4} {i : Instr} (h : decodeGroupC b c d = some i) :
    encodeWord i = code 0xC b c d := by
  induction b using digitCases <;> cases h <;> simp [encodeWord]

/-- A quadruple of digits that decodes is the code of the instruction it decodes to. -/
theorem encodeWord_of_decodeDigits {a b c d : BitVec 4} {i : Instr} (h : decodeDigits a b c d = some i) :
    encodeWord i = code a b c d := by
  induction a using digitCases
  case d0 => exact encodeWord_of_decodeGroup0 h
  case d2 => exact encodeWord_of_decodeGroup2 h
  case d3 => exact encodeWord_of_decodeGroup3 h
  case d4 => exact encodeWord_of_decodeGroup4 h
  case d6 => exact encodeWord_of_decodeGroup6 h
  case d8 => exact encodeWord_of_decodeGroup8 h
  case dC => exact encodeWord_of_decodeGroupC h
  all_goals cases h <;> simp [encodeWord]

/-- A word is the code of its four digits. -/
theorem code_digits (w : Half) :
    code (w.extractLsb' 12 4) (w.extractLsb' 8 4) (w.extractLsb' 4 4) (w.extractLsb' 0 4) = w := by
  rw [code, BitVec.extractLsb'_append_extractLsb'_eq_extractLsb' (by rfl),
    BitVec.extractLsb'_append_extractLsb'_eq_extractLsb' (by rfl),
    BitVec.extractLsb'_append_extractLsb'_eq_extractLsb' (by rfl), BitVec.extractLsb'_eq_self]

/-- A word decodes on a CPU exactly when its digits do and the CPU has the instruction. -/
theorem decodeWord_ok {cpu : Cpu} {w : Half} {i : Instr} :
    decodeWord cpu w = .ok i ↔
      decodeDigits (w.extractLsb' 12 4) (w.extractLsb' 8 4) (w.extractLsb' 4 4) (w.extractLsb' 0 4) = some i ∧
        i.wellFormed cpu = true := by
  unfold decodeWord
  cases decodeDigits (w.extractLsb' 12 4) (w.extractLsb' 8 4) (w.extractLsb' 4 4) (w.extractLsb' 0 4) with
  | none => simp
  | some j =>
    by_cases hwf : j.wellFormed cpu = true
    · simp only [hwf, if_true, Except.ok.injEq, Option.some.injEq]
      exact ⟨fun h => ⟨h, h ▸ hwf⟩, And.left⟩
    · simp only [hwf, Bool.false_eq_true, if_false, reduceCtorEq, false_iff, Option.some.injEq]
      exact fun ⟨h, hi⟩ => hwf (h ▸ hi)

/-- Settles O52: the digits of the word decode, and digits that decode are the code of what they decode to. -/
theorem encodeOfDecode : Obligations.EncodeOfDecode := by
  intro cpu w i h
  obtain ⟨hdigits, hwf⟩ := decodeWord_ok.mp h
  exact ⟨(encodeWord_of_decodeDigits hdigits).trans (code_digits w), hwf⟩

/-- Settles O50: each of the codes is a closed term that the decoder runs on. -/
theorem sampleCodes : Obligations.SampleCodes :=
  ⟨rfl, rfl, rfl, rfl, rfl, rfl, rfl, rfl, rfl, rfl, rfl⟩

end Sys2Proof.Machine
end

section
/-! PROOF. Memory (spec/20_memory.md).  A longword as its four bytes, what a store of a word or a longword leaves
alone in the terms of a frame, and what an access answers when it may be made (the logic family has both for a byte).
Then the two statements about memory itself. -/
namespace Sys2Proof.Machine

/-! ### Longwords and the bytes they are made of -/

/-- The four bytes of a longword written big-endian (R52). -/
theorem Memory.byte_setLong_big (m : Memory) (a v : Word) :
    (m.setLong false a v).byte a = v.extractLsb' 24 8 ∧
    (m.setLong false a v).byte (a + 1) = v.extractLsb' 16 8 ∧
    (m.setLong false a v).byte (a + 2) = v.extractLsb' 8 8 ∧
    (m.setLong false a v).byte (a + 3) = v.extractLsb' 0 8 := by
  simp [Memory.setLong, Memory.byte_setByte]

/-- The four bytes of a longword written little-endian (R57). -/
theorem Memory.byte_setLong_little (m : Memory) (a v : Word) :
    (m.setLong true a v).byte a = v.extractLsb' 0 8 ∧
    (m.setLong true a v).byte (a + 1) = v.extractLsb' 8 8 ∧
    (m.setLong true a v).byte (a + 2) = v.extractLsb' 16 8 ∧
    (m.setLong true a v).byte (a + 3) = v.extractLsb' 24 8 := by
  simp [Memory.setLong, Memory.byte_setByte]

/-- A longword read depends on its four bytes alone. -/
theorem Memory.long_congr {m m' : Memory} {a : Word} (l : Bool)
    (h : ∀ b, inRange b (a, 4) → m.byte b = m'.byte b) : m.long l a = m'.long l a := by
  have h0 : m.byte a = m'.byte a := h a (by simp [inRange])
  have h1 : m.byte (a + 1) = m'.byte (a + 1) := h _ (by simp only [inRange]; bv_omega)
  have h2 : m.byte (a + 2) = m'.byte (a + 2) := h _ (by simp only [inRange]; bv_omega)
  have h3 : m.byte (a + 3) = m'.byte (a + 3) := h _ (by simp only [inRange]; bv_omega)
  cases l <;> simp only [Memory.long, h0, h1, h2, h3]

/-! ### Outside the range of a store -/

theorem Memory.byte_setHalf_of_not_inRange (m : Memory) (l : Bool) {a b : Word} (v : Half) (h : ¬ inRange b (a, 2)) :
    (m.setHalf l a v).byte b = m.byte b := by
  simp only [inRange] at h
  exact Memory.byte_setHalf_ne m l v (by bv_omega) (by bv_omega)

theorem Memory.byte_setLong_of_not_inRange (m : Memory) (l : Bool) {a b : Word} (v : Word) (h : ¬ inRange b (a, 4)) :
    (m.setLong l a v).byte b = m.byte b := by
  simp only [inRange] at h
  exact Memory.byte_setLong_ne m l v (by bv_omega) (by bv_omega) (by bv_omega) (by bv_omega)

/-- A longword read beside the place of a longword written is as it was. -/
theorem Memory.long_setLong_disjoint (m : Memory) (l l' : Bool) {a b : Word} (v : Word)
    (h : ∀ c, inRange c (b, 4) → ¬ inRange c (a, 4)) : (m.setLong l a v).long l' b = m.long l' b :=
  Memory.long_congr l' fun c hc => Memory.byte_setLong_of_not_inRange m l v (h c hc)

/-- A word that the frame names may be stored. -/
theorem Frame.storedHalf {w : Writes} {s t : State} (f : Frame w s t) {a : Word} (ha : (a, 2) ∈ w.mem) (l : Bool)
    (v : Half) : Frame w s (t.stored a 2 (t.mem.setHalf l a v)) :=
  { f with
    mem := fun b hb => by
      rw [State.stored_mem, Memory.byte_setHalf_of_not_inRange t.mem l v (hb _ ha), f.mem b hb] }

/-- A longword that the frame names may be stored. -/
theorem Frame.storedLong {w : Writes} {s t : State} (f : Frame w s t) {a : Word} (ha : (a, 4) ∈ w.mem) (l : Bool)
    (v : Word) : Frame w s (t.stored a 4 (t.mem.setLong l a v)) :=
  { f with
    mem := fun b hb => by
      rw [State.stored_mem, Memory.byte_setLong_of_not_inRange t.mem l v (hb _ ha), f.mem b hb] }

/-! ### Accesses that may be made -/

theorem State.readHalf_of_can {s : State} {a : Word} (h : s.can .read 2 a) :
    s.readHalf a = .ok (s.mem.half (littleEndian s.cfg a) a) := State.readHalf_ok.mpr ⟨h.1, h.2, rfl⟩

theorem State.readLong_of_can {s : State} {a : Word} (h : s.can .read 4 a) :
    s.readLong a = .ok (s.mem.long (littleEndian s.cfg a) a) := State.readLong_ok.mpr ⟨h.1, h.2, rfl⟩

theorem State.writeHalf_of_can {s : State} {a : Word} (h : s.can .write 2 a) (v : Half) :
    s.writeHalf a v = .ok (s.stored a 2 (s.mem.setHalf (littleEndian s.cfg a) a v)) :=
  State.writeHalf_ok.mpr ⟨h.1, h.2, rfl⟩

theorem State.writeLong_of_can {s : State} {a : Word} (h : s.can .write 4 a) (v : Word) :
    s.writeLong a v = .ok (s.stored a 4 (s.mem.setLong (littleEndian s.cfg a) a v)) :=
  State.writeLong_ok.mpr ⟨h.1, h.2, rfl⟩

/-! ### The obligations -/

/-- Settles O59: the bytes are where `setLong` puts them, and a word is read from two of them. -/
theorem byteOrder : Obligations.ByteOrder := by
  intro m a v big little
  obtain ⟨b0, b1, b2, b3⟩ := Memory.byte_setLong_big m a v
  obtain ⟨l0, l1, l2, l3⟩ := Memory.byte_setLong_little m a v
  have hhigh : big.half false a = v.extractLsb' 16 16 := by
    rw [Memory.half, b0, b1, BitVec.extractLsb'_append_extractLsb'_eq_extractLsb' (by rfl)]
  have hlow : big.half false (a + 2) = v.extractLsb' 0 16 := by
    rw [Memory.half, show a + 2 + 1 = a + 3 from BitVec.add_assoc a 2 1, b2, b3,
      BitVec.extractLsb'_append_extractLsb'_eq_extractLsb' (by rfl)]
  exact ⟨b0, b1, b2, b3, hhigh, hlow, l0, l1, l2, l3⟩

theorem Memory.wfFrom_cons {lo k : Nat} {v : Byte} {rest : Memory} :
    Memory.wfFrom lo ((k, v) :: rest) = true ↔
      lo ≤ k ∧ k < 2 ^ 32 ∧ v ≠ Memory.unlisted ∧ Memory.wfFrom (k + 1) rest = true := by
  simp [Memory.wfFrom, and_assoc]

/-- Below its first entry a memory in the canonical form lists nothing. -/
theorem Memory.get_of_lt {lo : Nat} {m : Memory} (hm : Memory.wfFrom lo m = true) {a : Nat} (ha : a < lo) :
    m.get a = Memory.unlisted := by
  induction m generalizing lo with
  | nil => rfl
  | cons c rest ih =>
    obtain ⟨k, v⟩ := c
    obtain ⟨hk, -, -, hrest⟩ := Memory.wfFrom_cons.mp hm
    rw [Memory.get, if_neg (by omega), ih hrest (by omega)]

theorem Memory.le_of_get_ne {lo : Nat} {m : Memory} (hm : Memory.wfFrom lo m = true) {a : Nat}
    (ha : m.get a ≠ Memory.unlisted) : lo ≤ a :=
  Nat.le_of_not_lt fun hlt => ha (Memory.get_of_lt hm hlt)

/-- The first entry reads as its value; elsewhere the rest is read. -/
theorem Memory.get_cons_self (k : Nat) (v : Byte) (rest : Memory) : Memory.get ((k, v) :: rest) k = v := if_pos rfl

theorem Memory.get_cons_ne {k a : Nat} (v : Byte) (rest : Memory) (h : k ≠ a) :
    Memory.get ((k, v) :: rest) a = rest.get a := if_neg h

/-- Memories in the canonical form are told apart by a read: the first entry of one is found at the
head of the other, because everything below a head reads as unlisted. -/
theorem Memory.eq_of_get_eq {m m' : Memory} {lo : Nat} (hm : Memory.wfFrom lo m = true)
    (hm' : Memory.wfFrom lo m' = true) (h : ∀ a, a < 2 ^ 32 → m.get a = m'.get a) : m = m' := by
  induction m generalizing m' lo with
  | nil =>
    cases m' with
    | nil => rfl
    | cons c rest =>
      obtain ⟨k, v⟩ := c
      obtain ⟨-, hk, hv, -⟩ := Memory.wfFrom_cons.mp hm'
      exact absurd ((h k hk).trans (Memory.get_cons_self k v rest)).symm hv
  | cons c rest ih =>
    obtain ⟨k, v⟩ := c
    obtain ⟨-, hk, hv, hrest⟩ := Memory.wfFrom_cons.mp hm
    cases m' with
    | nil => exact absurd ((Memory.get_cons_self k v rest).symm.trans (h k hk)) hv
    | cons c' rest' =>
      obtain ⟨k', v'⟩ := c'
      obtain ⟨-, hk', hv', hrest'⟩ := Memory.wfFrom_cons.mp hm'
      have hle : k ≤ k' := by
        have hfrom : Memory.wfFrom k ((k, v) :: rest) = true := Memory.wfFrom_cons.mpr ⟨le_rfl, hk, hv, hrest⟩
        exact Memory.le_of_get_ne hfrom (by rwa [h k' hk', Memory.get_cons_self])
      have hge : k' ≤ k := by
        have hfrom : Memory.wfFrom k' ((k', v') :: rest') = true := Memory.wfFrom_cons.mpr ⟨le_rfl, hk', hv', hrest'⟩
        exact Memory.le_of_get_ne hfrom (by rwa [← h k hk, Memory.get_cons_self])
      obtain rfl : k = k' := le_antisymm hle hge
      have hvalues : v = v' := by simpa only [Memory.get_cons_self] using h k hk
      have hrests : rest = rest' := by
        refine ih hrest hrest' fun a ha => ?_
        by_cases hle : a ≤ k
        · rw [Memory.get_of_lt hrest (by omega), Memory.get_of_lt hrest' (by omega)]
        · simpa only [Memory.get_cons_ne _ _ (show k ≠ a by omega)] using h a ha
      rw [hvalues, hrests]

/-- Settles O60: every number below 2^32 is an address. -/
theorem memoryCanonical : Obligations.MemoryCanonical := by
  intro m m' hm hm' h
  refine Memory.eq_of_get_eq hm hm' fun a ha => ?_
  have := h (BitVec.ofNat 32 a)
  rwa [Memory.byte, Memory.byte, BitVec.toNat_ofNat, Nat.mod_eq_of_lt ha] at this

end Sys2Proof.Machine
end

section
/-! PROOF. Exception entry and what returns from it (spec/60_exceptions.md sections 3 and 5).  The entry answers one
state, named here; what is on the stack in it, its frame and its hidden fields are said once, for TRAPA, for the
exceptions and for interrupts. -/
namespace Sys2Proof.Machine

/-! ### The mask of an interrupt -/

/-- SR after exception entry: an interrupt writes its level into the mask (R376). -/
def entrySr (sr : Word) (mask : Option (BitVec 4)) : Word :=
  match mask with
  | none => sr
  | some l => withMask sr l

/-- The bits of SR that exception entry may change. -/
def entrySrBits (mask : Option (BitVec 4)) : List Nat :=
  match mask with
  | none => []
  | some _ => [4, 5, 6, 7]

theorem withMask_getLsbD (sr : Word) (l : BitVec 4) {j : Nat} (hj : j < 32) :
    (withMask sr l).getLsbD j = if j ∈ [4, 5, 6, 7] then l.getLsbD (j - 4) else sr.getLsbD j := by
  have hmask : ∀ k < 32, ((0xFFFFFF0F : Nat) : Word).getLsbD k = !decide (k ∈ [4, 5, 6, 7]) := by decide
  rw [withMask, BitVec.getLsbD_or, BitVec.getLsbD_and, BitVec.getLsbD_shiftLeft, BitVec.getLsbD_setWidth, hmask j hj]
  by_cases hin : j ∈ [4, 5, 6, 7]
  · have hge : ¬ j < 4 := by simp at hin; omega
    have hlt : j - 4 < 32 := by omega
    simp [hin, hj, hge, hlt]
  · have hout : j < 4 ∨ 4 ≤ j - 4 := by simp at hin; omega
    rcases hout with hlt | hge
    · simp [hin, hlt]
    · simp [hin, BitVec.getLsbD_of_ge l (j - 4) hge]

theorem withMask_imask (sr : Word) (l : BitVec 4) : (withMask sr l).extractLsb' 4 4 = l := by
  refine BitVec.eq_of_getLsbD_eq fun i hi => ?_
  have hin : 4 + i ∈ [4, 5, 6, 7] := by simp; omega
  rw [BitVec.getLsbD_extractLsb', withMask_getLsbD _ _ (by omega), if_pos hin, decide_eq_true hi, Bool.true_and,
    Nat.add_sub_cancel_left]

/-! ### The state after entry -/

/-- The state after exception entry (R370). -/
def State.afterEntry (s : State) (vec : BitVec 8) (ret : Word) (mask : Option (BitVec 4)) : State :=
  { s.setReg 15 (s.reg 15 - 8) with
    mem := s.pushedMem ret
    sr := entrySr s.sr mask
    delayTarget := none
    slotAfterUntaken := false
    intInhibit := false
    power := .run
    recentStores := []
    pc := (s.pushedMem ret).long (littleEndian s.cfg (s.vbr + zext8 vec * 4)) (s.vbr + zext8 vec * 4) }

/-- The entry sequence answers a state exactly when its three accesses may be made, and then this one. -/
theorem State.enterHandler_iff {s t : State} {vec : BitVec 8} {ret : Word} {mask : Option (BitVec 4)} :
    s.enterHandler vec ret mask = .ok t ↔ s.canEnter vec ∧ t = s.afterEntry vec ret mask :=
  State.enterHandler_ok.trans
    ⟨fun ⟨hsr, hret, hvec, ht⟩ => ⟨⟨hsr, hret, hvec⟩, ht⟩, fun ⟨⟨hsr, hret, hvec⟩, ht⟩ => ⟨hsr, hret, hvec, ht⟩⟩

theorem State.exceptionEntry_iff {s t : State} {vec : BitVec 8} {ret : Word} {mask : Option (BitVec 4)} :
    s.exceptionEntry vec ret mask = .next t ↔ s.canEnter vec ∧ t = s.afterEntry vec ret mask :=
  State.exceptionEntry_next.trans State.enterHandler_iff

/-- The two pushes lie beside each other. -/
theorem pushes_disjoint (sp c : Word) (h : inRange c (sp - 4, 4)) : ¬ inRange c (sp - 8, 4) := by
  simp only [inRange] at *
  bv_omega

/-- The two pushes together are the eight bytes below R15. -/
theorem inRange_pushes (sp c : Word) (h : inRange c (sp - 4, 4) ∨ inRange c (sp - 8, 4)) : inRange c (sp - 8, 8) := by
  simp only [inRange] at *
  bv_omega

/-- The longword pushed last is read back. -/
theorem State.pushedMem_ret (s : State) (ret : Word) :
    (s.pushedMem ret).long (littleEndian s.cfg (s.reg 15 - 8)) (s.reg 15 - 8) = ret :=
  Memory.long_setLong_same _ _ _ _

/-- SR, pushed first, is read back past the second push. -/
theorem State.pushedMem_sr (s : State) (ret : Word) :
    (s.pushedMem ret).long (littleEndian s.cfg (s.reg 15 - 4)) (s.reg 15 - 4) = s.sr := by
  rw [State.pushedMem, Memory.long_setLong_disjoint _ _ _ _ (pushes_disjoint (s.reg 15))]
  exact Memory.long_setLong_same _ _ _ _

theorem State.pushedMem_byte (s : State) (ret : Word) {b : Word} (h : ¬ inRange b (s.reg 15 - 8, 8)) :
    (s.pushedMem ret).byte b = s.mem.byte b := by
  rw [State.pushedMem,
    Memory.byte_setLong_of_not_inRange _ _ _ fun hb => h (inRange_pushes _ _ (.inr hb)),
    Memory.byte_setLong_of_not_inRange _ _ _ fun hb => h (inRange_pushes _ _ (.inl hb))]

theorem State.entered_afterEntry (s : State) (vec : BitVec 8) (ret : Word) (mask : Option (BitVec 4)) :
    Entered s (s.afterEntry vec ret mask) vec ret where
  savedSr := s.pushedMem_sr ret
  savedPc := s.pushedMem_ret ret
  sp := State.setReg_reg_same s 15 _
  handler := rfl
  delayTarget := rfl
  slotAfterUntaken := rfl
  intInhibit := rfl
  power := rfl
  recentStores := rfl

/-- Entry changes R15, the mask when it is given one, and the eight bytes pushed. -/
theorem State.frame_afterEntry (s : State) (vec : BitVec 8) (ret : Word) (mask : Option (BitVec 4)) :
    Frame { regs := [15], srBits := entrySrBits mask, mem := [(s.reg 15 - 8, 8)] } s (s.afterEntry vec ret mask) :=
  { (Frame.refl _ s).setReg (List.mem_singleton_self 15) (s.reg 15 - 8) with
    sr := fun j hj hjw => by
      cases mask with
      | none => rfl
      | some l => exact (withMask_getLsbD s.sr l hj).trans (if_neg hjw)
    mem := fun b hb => s.pushedMem_byte ret (hb _ (List.mem_singleton_self _)) }

/-! ### The obligations about entry -/

/-- Settles O40: with its three accesses allowed entry answers the state of which all this is said above. -/
theorem exceptionEntrySequence : Obligations.ExceptionEntrySequence := by
  intro s vec ret mask hcan
  refine ⟨_, State.exceptionEntry_iff.mpr ⟨hcan, rfl⟩, s.entered_afterEntry vec ret mask, ?_⟩
  cases mask with
  | none => exact s.frame_afterEntry vec ret none
  | some l => exact ⟨withMask_imask s.sr l, s.frame_afterEntry vec ret (some l)⟩

/-- Settles O41: entry answers a state exactly when its three accesses may be made, and has no other fault. -/
theorem doubleFaults : Obligations.DoubleFaults := by
  intro s vec ret mask
  simp only [State.exceptionEntry_fault, ne_eq, State.enterHandler_iff, not_and]
  exact ⟨fun h hcan => h _ hcan rfl, fun h _ hcan => absurd hcan h⟩

/-- Settles O39: outside a slot TRAPA is the entry sequence, with no mask written. -/
theorem trapAlways : Obligations.TrapAlways := by
  refine ⟨fun s imm hslot hcan => ?trapa, fun imm => hasCode_of_encodeWord (code_field8 0xC 0x3 imm)⟩
  case trapa =>
    have hentry : s.enterHandler imm (s.pc + 2) none = .ok (s.afterEntry imm (s.pc + 2) none) :=
      State.enterHandler_iff.mpr ⟨hcan, rfl⟩
    have hexec : exec (.trapa imm) s = .next (s.afterEntry imm (s.pc + 2) none) := by
      change execTrapa imm s = _
      rw [execTrapa, State.outsideSlot_none hslot, hentry, State.onAccess_ok]
    exact ⟨_, hexec, s.entered_afterEntry imm _ none, s.frame_afterEntry imm _ none⟩

/-! ### Return from an exception -/

/-- RTE outside a slot, when the stack can be read (R341). -/
theorem exec_rte {s : State} (hslot : s.delayTarget = none) (hpc : s.can .read 4 (s.reg 15))
    (hsr : s.can .read 4 (s.reg 15 + 4)) :
    exec .rte s = .next (((s.setReg 15 (s.reg 15 + 8)).setSr (s.loaded 4 (s.reg 15 + 4))).delayedBranch
      (some (s.loaded 4 (s.reg 15)))) := by
  change execRte s = _
  rw [execRte, State.outsideSlot_none hslot, State.returnFromException, State.readLong_of_can hpc, State.onAccess_ok,
    State.readLong_of_can hsr, State.onAccess_ok]
  rfl

/-- A status word without reserved bits is kept by the mask of the bits that exist. -/
theorem and_srMask_of_reserved {w : Word} (h : w &&& ~~~srMask = 0) : w &&& srMask = w := by
  have hsplit : (w &&& srMask) ||| (w &&& ~~~srMask) = w := by
    rw [← BitVec.and_or_distrib_left, BitVec.or_not_self, BitVec.and_allOnes]
  rw [h] at hsplit
  exact BitVec.or_zero.symm.trans hsplit

/-- Settles O42: RTE reads what entry pushed, from the addresses it pushed it to, and puts R15 back up by 8. -/
theorem returnUndoesEntry : Obligations.ReturnUndoesEntry := by
  intro s t vec ret mask hentry hreserved hcanPc hcanSr
  obtain ⟨-, rfl⟩ := State.exceptionEntry_iff.mp hentry
  have hsp : (s.afterEntry vec ret mask).reg 15 = s.reg 15 - 8 := State.setReg_reg_same s 15 _
  have hsp4 : s.reg 15 - 8 + 4 = s.reg 15 - 4 := by bv_omega
  have hpc : (s.afterEntry vec ret mask).loaded 4 (s.reg 15 - 8) = ret := s.pushedMem_ret ret
  have hsr : (s.afterEntry vec ret mask).loaded 4 (s.reg 15 - 4) = s.sr := s.pushedMem_sr ret
  have hexec := exec_rte (s := s.afterEntry vec ret mask) rfl (by rwa [hsp]) (by rwa [hsp, hsp4])
  rw [hsp, hsp4, hpc, hsr, BitVec.sub_add_cancel] at hexec
  refine ⟨_, hexec, fun r => ?regs, and_srMask_of_reserved hreserved, rfl, rfl, rfl, rfl, rfl, rfl, rfl⟩
  case regs =>
    have hframe := s.frame_afterEntry vec ret mask
    change ((s.afterEntry vec ret mask).setReg 15 (s.reg 15)).reg r = s.reg r
    rw [State.setReg_reg]
    split
    · next h => rw [h]
    · next h => exact hframe.regs r fun hr => h (List.mem_singleton.mp hr)

end Sys2Proof.Machine
end

section
/-! PROOF. The course of every instruction.  An instruction that may run its own course (`legal`) makes its data
accesses in order and, when all of them are allowed, works on registers, flags and memory and then ends in one of five
ways.  This is said of the 142 instructions once, in `exec_course`; what holds of every instruction follows from it
without another look at them. -/
namespace Sys2Proof.Machine

/-! ### Accesses decide a result -/

/-- The accesses of the list, made in order from `s`, decide the result: all allowed, it is a state of which `post`
holds; otherwise the first that fails says what it is. -/
def Course (s : State) (l : List DataAccess) (r : Result) (post : State → Prop) : Prop :=
  match s.accessOutcome l with
  | .allowed => ∃ t, r = .next t ∧ post t
  | .misaligned => r = s.addressErrorException
  | .refused kind a => r = .fault (.notAdmitted kind a)

theorem Course.done {s t : State} {post : State → Prop} (h : post t) : Course s [] (.next t) post := ⟨t, rfl, h⟩

/-- One more access in front: it is made, and the rest goes on with its value. -/
theorem Course.access {α : Type} {s : State} {kind : AccessKind} {bytes : Nat} {a : Word} {v : α} {k : α → Result}
    {l : List DataAccess} {post : State → Prop} (h : Course s l (k v) post) :
    Course s (⟨kind, bytes, a⟩ :: l) (s.onAccess (checkedAccess s kind bytes (alignedFor bytes a) a v) k) post := by
  unfold Course State.accessOutcome checkedAccess
  cases alignedFor bytes a with
  | false => rfl
  | true =>
    cases memAdmits s.cfg a bytes kind with
    | false => rfl
    | true => exact h

theorem Course.onSh2 {s : State} {l : List DataAccess} {r : Result} {post : State → Prop} (hcpu : s.cfg.cpu = .sh2)
    (h : Course s l r post) : Course s l (s.onSh2 r) post := (State.onSh2_sh2 hcpu r).symm ▸ h

theorem Course.outsideSlot {s : State} {l : List DataAccess} {r : Result} {post : State → Prop}
    (hslot : s.delayTarget = none) (h : Course s l r post) : Course s l (s.outsideSlot r) post :=
  (State.outsideSlot_none hslot r).symm ▸ h

/-! ### What the work of an instruction may change -/

/-- Before it ends, an instruction has turned `s` into `u`: nothing but `w` is written, the records `l` of its stores
are put before the others, the fields that steer the machine are as before, and the parts of the invariant that
registers and memory carry still hold. -/
structure Works (w : Writes) (l : List StoreRecord) (s u : State) : Prop where
  frame : Frame w s u
  pc : u.pc = s.pc
  delayTarget : u.delayTarget = s.delayTarget
  slotAfterUntaken : u.slotAfterUntaken = s.slotAfterUntaken
  power : u.power = s.power
  recentStores : u.recentStores = l ++ s.recentStores
  memWf : s.mem.wf = true → u.mem.wf = true
  srReserved : s.srReservedZero → u.srReservedZero
  machFits : s.machFits → u.machFits

theorem Works.refl (w : Writes) (s : State) : Works w [] s s where
  frame := Frame.refl w s
  pc := rfl
  delayTarget := rfl
  slotAfterUntaken := rfl
  power := rfl
  recentStores := rfl
  memWf := id
  srReserved := id
  machFits := id

section
variable {w : Writes} {l : List StoreRecord} {s u : State}

theorem Works.setReg (c : Works w l s u) {n : Reg} (hn : n ∈ w.regs) (v : Word) : Works w l s (u.setReg n v) :=
  { c with frame := c.frame.setReg hn v }

/-- The reserved bits are 0 exactly when every bit outside the mask is. -/
theorem State.srReservedZero_iff (s : State) :
    s.srReservedZero ↔ ∀ j, j < 32 → srMask.getLsbD j = false → s.sr.getLsbD j = false := by
  have hbits : ∀ j < 32, (s.sr &&& ~~~srMask).getLsbD j = (s.sr.getLsbD j && !srMask.getLsbD j) := by
    intro j hj
    rw [BitVec.getLsbD_and, BitVec.getLsbD_not, decide_eq_true hj, Bool.true_and]
  constructor
  · intro h j hj hmask
    have hbit := hbits j hj
    rw [show s.sr &&& ~~~srMask = 0 from h, hmask, Bool.not_false, Bool.and_true] at hbit
    exact hbit.symm.trans BitVec.getLsbD_zero
  · intro h
    refine BitVec.eq_of_getLsbD_eq fun j hj => (hbits j hj).trans (Eq.trans ?_ BitVec.getLsbD_zero.symm)
    cases hmask : srMask.getLsbD j with
    | true => exact Bool.and_false _
    | false => rw [h j hj hmask, Bool.false_and]

/-- A bit of SR that exists is written. -/
theorem Works.putSrBit (c : Works w l s u) {i : Nat} (hi : i ∈ w.srBits) (hmask : srMask.getLsbD i = true) (b : Bool) :
    Works w l s { u with sr := putBit u.sr i b } :=
  { c with
    frame := c.frame.putSrBit hi b
    srReserved := fun h => by
      refine (State.srReservedZero_iff _).mpr fun k hk hk0 => ?_
      have hne : k ≠ i := fun hki => by cases (hki ▸ hk0).symm.trans hmask
      rw [putBit_getLsbD _ _ _ _ hk, if_neg hne]
      exact (State.srReservedZero_iff u).mp (c.srReserved h) k hk hk0 }

theorem Works.setT (c : Works w l s u) (h : 0 ∈ w.srBits) (b : Bool) : Works w l s (u.setT b) :=
  c.putSrBit h (by decide) b

theorem Works.setQ (c : Works w l s u) (h : 8 ∈ w.srBits) (b : Bool) : Works w l s (u.setQ b) :=
  c.putSrBit h (by decide) b

theorem Works.setM (c : Works w l s u) (h : 9 ∈ w.srBits) (b : Bool) : Works w l s (u.setM b) :=
  c.putSrBit h (by decide) b

theorem Frame.setSr (f : Frame w s u) (h : w.srBits = List.range 32) (v : Word) : Frame w s (u.setSr v) :=
  { f with sr := fun _ hj hjw => absurd (List.mem_range.mpr hj) (h ▸ hjw) }

theorem Frame.setGbr (f : Frame w s u) (h : w.gbr = true) (v : Word) : Frame w s (u.setGbr v) :=
  { f with gbr := fun h' => absurd (h.symm.trans h') (by decide) }

theorem Frame.setVbr (f : Frame w s u) (h : w.vbr = true) (v : Word) : Frame w s (u.setVbr v) :=
  { f with vbr := fun h' => absurd (h.symm.trans h') (by decide) }

theorem Frame.setPr (f : Frame w s u) (h : w.pr = true) (v : Word) : Frame w s (u.setPr v) :=
  { f with pr := fun h' => absurd (h.symm.trans h') (by decide) }

theorem Frame.setMach (f : Frame w s u) (h : w.mach = true) (v : Word) : Frame w s (u.setMach v) :=
  { f with mach := fun h' => absurd (h.symm.trans h') (by decide) }

/-- The bits that exist are loaded into SR (R26). -/
theorem Works.setSr (c : Works w l s u) (h : w.srBits = List.range 32) (v : Word) : Works w l s (u.setSr v) :=
  { c with
    frame := c.frame.setSr h v
    srReserved := fun _ => by
      change v &&& srMask &&& ~~~srMask = 0
      rw [BitVec.and_assoc, BitVec.and_not_self]
      exact BitVec.and_zero }

theorem Works.setGbr (c : Works w l s u) (h : w.gbr = true) (v : Word) : Works w l s (u.setGbr v) :=
  { c with frame := c.frame.setGbr h v }

theorem Works.setVbr (c : Works w l s u) (h : w.vbr = true) (v : Word) : Works w l s (u.setVbr v) :=
  { c with frame := c.frame.setVbr h v }

theorem Works.setPr (c : Works w l s u) (h : w.pr = true) (v : Word) : Works w l s (u.setPr v) :=
  { c with frame := c.frame.setPr h v }

theorem Works.setMacl (c : Works w l s u) (h : w.macl = true) (v : Word) : Works w l s (u.setMacl v) :=
  { c with frame := c.frame.setMacl h v }

/-- The sign extension of ten bits has these ten bits. -/
theorem extractLsb'_sext10 (v : BitVec 10) : (sext10 v).extractLsb' 0 10 = v := by
  refine BitVec.eq_of_getLsbD_eq fun _ hj => ?_
  rw [BitVec.getLsbD_extractLsb', decide_eq_true hj, Bool.true_and, Nat.zero_add, sext10,
    BitVec.getLsbD_signExtend, if_pos hj, decide_eq_true (by omega), Bool.true_and]

/-- LDS to MACH keeps the form of the SH-1's ten bits (R322). -/
theorem Works.setMach (c : Works w l s u) (h : w.mach = true) (v : Word) : Works w l s (u.setMach v) :=
  { c with
    frame := c.frame.setMach h v
    machFits := fun _ hcpu => by
      change machStore u.cfg.cpu v = sext10 ((machStore u.cfg.cpu v).extractLsb' 0 10)
      change u.cfg.cpu = .sh1 at hcpu
      rw [hcpu, machStore, extractLsb'_sext10] }

/-- Both halves of the accumulator are written, the upper in the form that the CPU asks for. -/
theorem Works.setMachMacl (c : Works w l s u) (hmach : w.mach = true) (hmacl : w.macl = true) {vh vl : Word}
    (hfits : u.machFits → ({ u with mach := vh } : State).machFits) : Works w l s { u with mach := vh, macl := vl } :=
  { c with
    frame := { c.frame with
      mach := fun h => absurd (hmach.symm.trans h) (by decide)
      macl := fun h => absurd (hmacl.symm.trans h) (by decide) }
    machFits := fun h => hfits (c.machFits h) }

/-- `MAC <- v` on the SH-2, where MACH has no form to keep. -/
theorem Works.setMac (c : Works w l s u) (hmach : w.mach = true) (hmacl : w.macl = true) (hcpu : u.cfg.cpu = .sh2)
    (v : BitVec 64) : Works w l s (u.setMac v) :=
  c.setMachMacl hmach hmacl fun _ hsh1 => by cases hcpu.symm.trans hsh1

/-- MAC.L's accumulation, on the SH-2 (R218, R219). -/
theorem Works.accumulateLong (c : Works w l s u) (hmach : w.mach = true) (hmacl : w.macl = true)
    (hcpu : u.cfg.cpu = .sh2) (a b : Word) : Works w l s (u.accumulateLong a b) := by
  simp only [State.accumulateLong]
  split
  · exact c.setMac hmach hmacl hcpu _
  · exact c.setMac hmach hmacl hcpu _

/-- MAC.W's accumulation with S = 0 gives MACH the form of either CPU (R220, R221). -/
theorem Works.accumulateHalf (c : Works w l s u) (hmach : w.mach = true) (hmacl : w.macl = true) (p : Int) :
    Works w l s (u.accumulateHalf p) := by
  unfold State.accumulateHalf
  cases hcpu : u.cfg.cpu with
  | sh2 => exact c.setMac hmach hmacl hcpu _
  | sh1 => exact c.setMachMacl hmach hmacl fun _ _ => congrArg sext10 (extractLsb'_sext10 _).symm

/-- A word is the sign extension of its ten low bits exactly when the bits above them copy bit 9. -/
theorem eq_sext10_iff (x : Word) :
    x = sext10 (x.extractLsb' 0 10) ↔ ∀ j, 10 ≤ j → j < 32 → x.getLsbD j = x.getLsbD 9 := by
  have hbits : ∀ j < 32, (sext10 (x.extractLsb' 0 10)).getLsbD j = if j < 10 then x.getLsbD j else x.getLsbD 9 := by
    intro j hj
    rw [sext10, BitVec.getLsbD_signExtend, decide_eq_true hj, Bool.true_and, BitVec.msb_eq_getLsbD_last,
      BitVec.getLsbD_extractLsb', BitVec.getLsbD_extractLsb', Nat.zero_add]
    split
    · next h => rw [decide_eq_true h, Bool.true_and]
    · rfl
  constructor
  · intro h j hge hlt
    rw [h, hbits j hlt, if_neg (by omega), hbits 9 (by omega), if_pos (by omega)]
  · intro h
    refine BitVec.eq_of_getLsbD_eq fun j hj => ?_
    rw [hbits j hj]
    split
    · rfl
    · exact h j (by omega) hj

/-- MAC.W's accumulation with S = 1 writes no bit of MACH but bit 0, which is one of the ten (R223). -/
theorem Works.accumulateHalfSaturating (c : Works w l s u) (hmach : w.mach = true) (hmacl : w.macl = true) (p : Int) :
    Works w l s (u.accumulateHalfSaturating p) := by
  refine c.setMachMacl hmach hmacl fun hfits hcpu => ?_
  have hold := (eq_sext10_iff u.mach).mp (hfits hcpu)
  refine (eq_sext10_iff _).mpr fun j hge hlt => ?_
  have hone : ∀ k, 1 ≤ k → k < 32 → (u.mach ||| 1).getLsbD k = u.mach.getLsbD k := by
    intro k hk _
    rw [BitVec.getLsbD_or, show (1 : Word).getLsbD k = false by simp; omega, Bool.or_false]
  dsimp only
  split
  · rw [hone j (by omega) hlt, hone 9 (by omega) (by omega), hold j hge hlt]
  · exact hold j hge hlt

theorem Works.storedByte (c : Works w l s u) {a : Word} (ha : (a, 1) ∈ w.mem) (v : Byte) :
    Works w (⟨a, 1, 3⟩ :: l) s (u.stored a 1 (u.mem.setByte a v)) :=
  { c with
    frame := c.frame.storedByte ha v
    recentStores := congrArg _ c.recentStores
    memWf := fun h => Memory.wf_setByte _ _ _ (c.memWf h) }

theorem Works.storedHalf (c : Works w l s u) {a : Word} (ha : (a, 2) ∈ w.mem) (e : Bool) (v : Half) :
    Works w (⟨a, 2, 3⟩ :: l) s (u.stored a 2 (u.mem.setHalf e a v)) :=
  { c with
    frame := c.frame.storedHalf ha e v
    recentStores := congrArg _ c.recentStores
    memWf := fun h => Memory.wf_setHalf _ _ _ _ (c.memWf h) }

theorem Works.storedLong (c : Works w l s u) {a : Word} (ha : (a, 4) ∈ w.mem) (e : Bool) (v : Word) :
    Works w (⟨a, 4, 3⟩ :: l) s (u.stored a 4 (u.mem.setLong e a v)) :=
  { c with
    frame := c.frame.storedLong ha e v
    recentStores := congrArg _ c.recentStores
    memWf := fun h => Memory.wf_setLong _ _ _ _ (c.memWf h) }

/-- Ended by `finish`, such work has its frame and ends as an ordinary instruction. -/
theorem Works.finished (c : Works w l s u) :
    Frame w s u.finish ∧ Ends s u.finish false :=
  ⟨c.frame.finish, ends_finish c.pc c.delayTarget c.power⟩

/-- Ended by `finishInhibit`, it ends as an interrupt-disabled instruction (R344). -/
theorem Works.finishedInhibit (c : Works w l s u) :
    Frame w s u.finishInhibit ∧ Ends s u.finishInhibit true :=
  ⟨c.frame.finishInhibit, ends_finishInhibit c.pc c.delayTarget c.power⟩

/-- Ended as a delayed branch, it leaves the destination held and the slot next (R283). -/
theorem Works.delayed (c : Works w l s u) (target : Option Word) :
    EndsInSlot s (u.delayedBranch target) target ∧ Frame w s (u.delayedBranch target) :=
  ⟨{ pc := congrArg (· + 2) c.pc, delayTarget := rfl, slotAfterUntaken := rfl, intInhibit := rfl, power := c.power },
    { c.frame with }⟩

end

/-! ### What an instruction may write, and how it ends -/

/-- The instructions that load all of SR (R316, R319, R341). -/
def loadsSr (i : Instr) : Bool :=
  match i with
  | .ldcSr _ | .ldcLSr _ | .rte => true
  | _ => false

/-- The instructions that write both halves of the accumulator. -/
def writesMac (i : Instr) : Bool :=
  match i with
  | .clrmac | .dmulsL _ _ | .dmuluL _ _ | .macL _ _ | .macW _ _ => true
  | _ => false

/-- The instructions that write MACH alone. -/
def writesMach (i : Instr) : Bool :=
  match i with
  | .ldsMach _ | .ldsLMach _ => true
  | _ => false

/-- The instructions that write MACL alone. -/
def writesMacl (i : Instr) : Bool :=
  match i with
  | .mulL _ _ | .mulsW _ _ | .muluW _ _ | .ldsMacl _ | .ldsLMacl _ => true
  | _ => false

/-- The instructions that write PR. -/
def writesPr (i : Instr) : Bool :=
  match i with
  | .bsr _ | .bsrf _ | .jsr _ | .ldsPr _ | .ldsLPr _ => true
  | _ => false

/-- The instructions that write GBR. -/
def writesGbr (i : Instr) : Bool :=
  match i with
  | .ldcGbr _ | .ldcLGbr _ => true
  | _ => false

/-- The instructions that write VBR. -/
def writesVbr (i : Instr) : Bool :=
  match i with
  | .ldcVbr _ | .ldcLVbr _ => true
  | _ => false

/-- What an instruction may write by its own effect; the general registers are not told apart. -/
def mayWrite (i : Instr) (s : State) : Writes where
  regs := List.finRange 16
  srBits := if loadsSr i then List.range 32 else statusBitsWritten i
  gbr := writesGbr i
  vbr := writesVbr i
  mach := writesMac i || writesMach i
  macl := writesMac i || writesMacl i
  pr := writesPr i
  mem := (storesOf (accesses i s)).map fun r => (r.addr, r.bytes)

/-- BF and BT, when they branch, do so at once (R282). -/
def jumpsAtOnce (i : Instr) (s : State) : Bool :=
  match i with
  | .bf _ => !s.tBit
  | .bt _ => s.tBit
  | _ => false

/-- The five ways an instruction that has turned `s` into `u` ends; the truth value says whether it branches at
once. -/
inductive Ending (s u : State) : Bool → State → Prop
  /-- The next in sequence, or the end of a delay slot (R34, R283, R344). -/
  | advance (inhibit : Bool) : Ending s u false (u.advance inhibit)
  /-- SLEEP (R342). -/
  | sleep : Ending s u false { u.finish with power := .sleep }
  /-- A branch taken at once, outside a slot (R282). -/
  | branchNow (hslot : s.delayTarget = none) (target : Word) : Ending s u true (u.branchNow target)
  /-- A delayed branch, outside a slot (R283). -/
  | delayed (hslot : s.delayTarget = none) (target : Word) : Ending s u false (u.delayedBranch (some target))
  /-- BF/S or BT/S, outside a slot (R288, R290). -/
  | conditional (hslot : s.delayTarget = none) (taken : Bool) (disp : BitVec 8) :
    Ending s u false (u.delayedConditional taken disp)

/-- The instruction has run its own course from `s` to `t`. -/
def Ran (i : Instr) (s t : State) : Prop :=
  ∃ u, Works (mayWrite i s) (storesOf (accesses i s)) s u ∧ Ending s u (jumpsAtOnce i s) t

/-- An instruction that only the SH-2 has runs its own course on the SH-2 only (R108). -/
theorem sh2_of_legal {i : Instr} {s : State} (h : legal i s) (hi : i.sh2Only = true) : s.cfg.cpu = .sh2 := by
  obtain ⟨hwf, -⟩ := h
  cases hcpu : s.cfg.cpu with
  | sh2 => rfl
  | sh1 => rw [hcpu, Instr.wellFormed, hi] at hwf; cases hwf

/-! ### The course of every instruction -/

/-- The Rm operand of a multiply-and-accumulate is read with the register already incremented when m = n. -/
theorem State.setReg_reg_macSecond (s : State) (m n : Reg) (size : Word) :
    (s.setReg n (s.reg n + size)).reg m = s.macSecond m n size := State.setReg_reg s n m _

theorem exec_macL (m n : Reg) (s : State) :
    exec (.macL m n) s = s.onSh2 (s.onAccess (s.readLong (s.reg n)) fun a =>
      s.onAccess (s.readLong (s.macSecond m n 4)) fun b =>
        .next (((s.setReg n (s.reg n + 4)).setReg m (s.macSecond m n 4 + 4)).accumulateLong a b).finish) := by
  rw [← State.setReg_reg_macSecond]
  rfl

theorem exec_macW (m n : Reg) (s : State) :
    exec (.macW m n) s = s.onAccess (s.readHalf (s.reg n)) fun a =>
      s.onAccess (s.readHalf (s.macSecond m n 2)) fun b =>
        .next (if s.sBit
          then ((s.setReg n (s.reg n + 2)).setReg m (s.macSecond m n 2 + 2)).accumulateHalfSaturating
            (a.toInt * b.toInt)
          else ((s.setReg n (s.reg n + 2)).setReg m (s.macSecond m n 2 + 2)).accumulateHalf
            (a.toInt * b.toInt)).finish := by
  rw [← State.setReg_reg_macSecond]
  rfl

theorem Ending.of_jumps {s u t : State} {b b' : Bool} (h : b = b') (e : Ending s u b' t) : Ending s u b t := h ▸ e

/-- Every instruction that may run its own course, TRAPA aside, runs it when its accesses allow. -/
theorem exec_course {i : Instr} {s : State} (hlegal : legal i s) (htrap : ∀ imm, i ≠ .trapa imm) :
    Course s (accesses i s) (exec i s) (Ran i s) := by
  have hreg : ∀ n : Reg, n ∈ (mayWrite i s).regs := List.mem_finRange
  have hsh2 : i.sh2Only = true → s.cfg.cpu = .sh2 := sh2_of_legal hlegal
  have hslot : rewritesPc i = true → s.delayTarget = none := hlegal.2
  cases i with
  | trapa imm => exact absurd rfl (htrap imm)
  -- one register
  | mov _ n | movImm _ n | movt n | swapB _ n | swapW _ n | xtrct _ n | add _ n | addImm _ n | extsB _ n | extsW _ n
  | extuB _ n | extuW _ n | neg _ n | sub _ n | and _ n | not _ n | or _ n | xor _ n | shll2 n | shlr2 n | shll8 n
  | shlr8 n | shll16 n | shlr16 n | stcSr n | stcGbr n | stcVbr n | stsMach n | stsMacl n | stsPr n =>
    exact .done ⟨_, (Works.refl _ s).setReg (hreg n) _, .advance _⟩
  | mova _ | andImm _ | orImm _ | xorImm _ => exact .done ⟨_, (Works.refl _ s).setReg (hreg 0) _, .advance _⟩
  -- T, a register and T, the flags of the division
  | cmpEqImm _ | cmpEq _ _ | cmpHs _ _ | cmpGe _ _ | cmpHi _ _ | cmpGt _ _ | cmpPl _ | cmpPz _ | cmpStr _ _ | tst _ _
  | tstImm _ | clrt | sett =>
    exact .done ⟨_, (Works.refl _ s).setT (.head _) _, .advance _⟩
  | addc _ n | addv _ n | negc _ n | subc _ n | subv _ n | rotl n | rotr n | rotcl n | rotcr n | shal n | shar n
  | shll n | shlr n =>
    exact .done ⟨_, ((Works.refl _ s).setReg (hreg n) _).setT (.head _) _, .advance _⟩
  | dt n => exact .onSh2 (hsh2 rfl) (.done ⟨_, ((Works.refl _ s).setReg (hreg n) _).setT (.head _) _, .advance _⟩)
  | div1 _ n =>
    exact .done ⟨_, ((((Works.refl _ s).setReg (hreg n) _).setReg (hreg n) _).setQ (.tail _ (.head _)) _).setT
      (.head _) _, .advance _⟩
  | div0s _ _ =>
    exact .done ⟨_, (((Works.refl _ s).setQ (.tail _ (.head _)) _).setM (.tail _ (.tail _ (.head _))) _).setT
      (.head _) _, .advance _⟩
  | div0u =>
    exact .done ⟨_, (((Works.refl _ s).setM (.tail _ (.tail _ (.head _))) _).setQ (.tail _ (.head _)) _).setT
      (.head _) _, .advance _⟩
  -- the accumulator
  | dmulsL _ _ | dmuluL _ _ =>
    exact .onSh2 (hsh2 rfl) (.done ⟨_, (Works.refl _ s).setMac rfl rfl (hsh2 rfl) _, .advance _⟩)
  | mulL _ _ => exact .onSh2 (hsh2 rfl) (.done ⟨_, (Works.refl _ s).setMacl rfl _, .advance _⟩)
  | mulsW _ _ | muluW _ _ | ldsMacl _ => exact .done ⟨_, (Works.refl _ s).setMacl rfl _, .advance _⟩
  | clrmac => exact .done ⟨_, (Works.refl _ s).setMachMacl rfl rfl fun _ _ => rfl, .advance _⟩
  | macL m n =>
    have hregs := ((Works.refl (mayWrite (.macL m n) s) s).setReg (hreg n) (s.reg n + 4)).setReg (hreg m)
      (s.macSecond m n 4 + 4)
    rw [exec_macL]
    exact .onSh2 (hsh2 rfl) (.access (.access (.done ⟨_, hregs.accumulateLong rfl rfl (hsh2 rfl) _ _, .advance _⟩)))
  | macW m n =>
    have hregs := ((Works.refl (mayWrite (.macW m n) s) s).setReg (hreg n) (s.reg n + 2)).setReg (hreg m)
      (s.macSecond m n 2 + 2)
    rw [exec_macW]
    cases s.sBit with
    | true => exact .access (.access (.done ⟨_, hregs.accumulateHalfSaturating rfl rfl _, .advance _⟩))
    | false => exact .access (.access (.done ⟨_, hregs.accumulateHalf rfl rfl _, .advance _⟩))
  -- control and system registers
  | ldcSr _ => exact .done ⟨_, (Works.refl _ s).setSr rfl _, .advance _⟩
  | ldcGbr _ => exact .done ⟨_, (Works.refl _ s).setGbr rfl _, .advance _⟩
  | ldcVbr _ => exact .done ⟨_, (Works.refl _ s).setVbr rfl _, .advance _⟩
  | ldsMach _ => exact .done ⟨_, (Works.refl _ s).setMach rfl _, .advance _⟩
  | ldsPr _ => exact .done ⟨_, (Works.refl _ s).setPr rfl _, .advance _⟩
  | ldcLSr m => exact .access (.done ⟨_, ((Works.refl _ s).setSr rfl _).setReg (hreg m) _, .advance _⟩)
  | ldcLGbr m => exact .access (.done ⟨_, ((Works.refl _ s).setGbr rfl _).setReg (hreg m) _, .advance _⟩)
  | ldcLVbr m => exact .access (.done ⟨_, ((Works.refl _ s).setVbr rfl _).setReg (hreg m) _, .advance _⟩)
  | ldsLMach m => exact .access (.done ⟨_, ((Works.refl _ s).setMach rfl _).setReg (hreg m) _, .advance _⟩)
  | ldsLMacl m => exact .access (.done ⟨_, ((Works.refl _ s).setMacl rfl _).setReg (hreg m) _, .advance _⟩)
  | ldsLPr m => exact .access (.done ⟨_, ((Works.refl _ s).setPr rfl _).setReg (hreg m) _, .advance _⟩)
  | stcLSr n | stcLGbr n | stcLVbr n | stsLMach n | stsLMacl n | stsLPr n =>
    exact .access (.done ⟨_, ((Works.refl _ s).storedLong (.head _) _ _).setReg (hreg n) _, .advance _⟩)
  -- loads
  | movWPc _ n | movLPc _ n | movBLoad _ n | movWLoad _ n | movLLoad _ n | movLLoadDisp _ _ n | movBLoadIdx _ n
  | movWLoadIdx _ n | movLLoadIdx _ n =>
    exact .access (.done ⟨_, (Works.refl _ s).setReg (hreg n) _, .advance _⟩)
  | movBLoadDisp _ _ | movWLoadDisp _ _ | movBLoadGbr _ | movWLoadGbr _ | movLLoadGbr _ =>
    exact .access (.done ⟨_, (Works.refl _ s).setReg (hreg 0) _, .advance _⟩)
  | movBLoadInc m n | movWLoadInc m n | movLLoadInc m n =>
    exact .access (.done ⟨_, ((Works.refl _ s).setReg (hreg m) _).setReg (hreg n) _, .advance _⟩)
  -- stores
  | movBStore _ _ | movBStoreDisp _ _ | movBStoreIdx _ _ | movBStoreGbr _ =>
    exact .access (.done ⟨_, (Works.refl _ s).storedByte (.head _) _, .advance _⟩)
  | movWStore _ _ | movWStoreDisp _ _ | movWStoreIdx _ _ | movWStoreGbr _ =>
    exact .access (.done ⟨_, (Works.refl _ s).storedHalf (.head _) _ _, .advance _⟩)
  | movLStore _ _ | movLStoreDisp _ _ _ | movLStoreIdx _ _ | movLStoreGbr _ =>
    exact .access (.done ⟨_, (Works.refl _ s).storedLong (.head _) _ _, .advance _⟩)
  | movBStoreDec _ n =>
    exact .access (.done ⟨_, ((Works.refl _ s).storedByte (.head _) _).setReg (hreg n) _, .advance _⟩)
  | movWStoreDec _ n =>
    exact .access (.done ⟨_, ((Works.refl _ s).storedHalf (.head _) _ _).setReg (hreg n) _, .advance _⟩)
  | movLStoreDec _ n =>
    exact .access (.done ⟨_, ((Works.refl _ s).storedLong (.head _) _ _).setReg (hreg n) _, .advance _⟩)
  -- bytes read and written back
  | andB _ | orB _ | xorB _ =>
    exact .access (.access (.done ⟨_, (Works.refl _ s).storedByte (.head _) _, .advance _⟩))
  | tstB _ => exact .access (.done ⟨_, (Works.refl _ s).setT (.head _) _, .advance _⟩)
  | tasB _ =>
    exact .access (.access (.done ⟨_, ((Works.refl _ s).storedByte (.head _) _).setT (.head _) _, .advance _⟩))
  -- branches
  | bf disp =>
    refine .outsideSlot (hslot rfl) ?_
    cases ht : s.tBit with
    | true => exact .done ⟨_, Works.refl _ s, .of_jumps (by rw [jumpsAtOnce, ht]; rfl) (.advance _)⟩
    | false => exact .done ⟨_, Works.refl _ s, .of_jumps (by rw [jumpsAtOnce, ht]; rfl) (.branchNow (hslot rfl) _)⟩
  | bt disp =>
    refine .outsideSlot (hslot rfl) ?_
    cases ht : s.tBit with
    | true => exact .done ⟨_, Works.refl _ s, .of_jumps ht (.branchNow (hslot rfl) _)⟩
    | false => exact .done ⟨_, Works.refl _ s, .of_jumps ht (.advance _)⟩
  | bfS _ | btS _ =>
    exact .onSh2 (hsh2 rfl) (.outsideSlot (hslot rfl) (.done ⟨_, Works.refl _ s, .conditional (hslot rfl) _ _⟩))
  | bra _ | jmp _ | rts => exact .outsideSlot (hslot rfl) (.done ⟨_, Works.refl _ s, .delayed (hslot rfl) _⟩)
  | braf _ =>
    exact .onSh2 (hsh2 rfl) (.outsideSlot (hslot rfl) (.done ⟨_, Works.refl _ s, .delayed (hslot rfl) _⟩))
  | bsr _ | jsr _ =>
    exact .outsideSlot (hslot rfl) (.done ⟨_, (Works.refl _ s).setPr rfl _, .delayed (hslot rfl) _⟩)
  | bsrf _ =>
    exact .onSh2 (hsh2 rfl)
      (.outsideSlot (hslot rfl) (.done ⟨_, (Works.refl _ s).setPr rfl _, .delayed (hslot rfl) _⟩))
  | rte =>
    exact .outsideSlot (hslot rfl) (.access (.access
      (.done ⟨_, ((Works.refl _ s).setReg (hreg 15) _).setSr rfl _, .delayed (hslot rfl) _⟩)))
  -- the end alone
  | nop => exact .done ⟨_, Works.refl _ s, .advance _⟩
  | sleep => exact .done ⟨_, Works.refl _ s, .sleep⟩

/-! ### Where an instruction may not run its own course -/

/-- In a delay slot an instruction that rewrites the PC is illegal on either CPU (R284, R108). -/
theorem exec_rewritesPc_in_slot {i : Instr} {s : State} {d : Word} (hi : rewritesPc i = true)
    (hd : s.delayTarget = some d) : exec i s = s.illegalInstruction := by
  have hslot : ∀ r, s.outsideSlot r = s.illegalInstruction := State.outsideSlot_some hd
  have hsh2 : ∀ r, s.onSh2 (s.outsideSlot r) = s.illegalInstruction := fun r => by
    rw [hslot, State.onSh2]
    cases s.cfg.cpu <;> rfl
  cases i with
  | bf _ | bt _ | bra _ | bsr _ | jmp _ | jsr _ | rts | rte | trapa _ => exact hslot _
  | bfS _ | btS _ | braf _ | bsrf _ => exact hsh2 _
  | _ => cases hi

/-- On the SH-1 an instruction of the SH-2 is illegal (R108). -/
theorem exec_sh2Only_on_sh1 {i : Instr} {s : State} (hi : i.sh2Only = true) (hcpu : s.cfg.cpu = .sh1) :
    exec i s = s.illegalInstruction := by
  cases i with
  | bfS _ | btS _ | braf _ | bsrf _ | dt _ | mulL _ _ | dmulsL _ _ | dmuluL _ _ | macL _ _ =>
    exact State.onSh2_sh1 hcpu _
  | _ => cases hi

theorem exec_of_not_legal {i : Instr} {s : State} (h : ¬ legal i s) : exec i s = s.illegalInstruction := by
  by_cases hcpu : i.sh2Only = true ∧ s.cfg.cpu = .sh1
  · exact exec_sh2Only_on_sh1 hcpu.1 hcpu.2
  · have hwf : i.wellFormed s.cfg.cpu = true := by
      cases hc : s.cfg.cpu with
      | sh1 =>
        change (!i.sh2Only) = true
        rw [Bool.eq_false_iff.mpr fun hi => hcpu ⟨hi, hc⟩, Bool.not_false]
      | sh2 => rfl
    obtain ⟨hi, hd⟩ := Classical.not_imp.mp fun hslot => h ⟨hwf, hslot⟩
    obtain ⟨d, hd⟩ := Option.ne_none_iff_exists'.mp hd
    exact exec_rewritesPc_in_slot hi hd

/-! ### TRAPA -/

/-- A chain of accesses, made one after the other. -/
theorem State.onAccess_bind {α β : Type} (s : State) (x : Access α) (f : α → Access β) (k : β → Result) :
    s.onAccess (x.bind f) k = s.onAccess x fun v => s.onAccess (f v) k := by
  cases x <;> rfl

/-- The accesses of TRAPA are the three of exception entry. -/
theorem trapa_course {imm : BitVec 8} {s : State} (hlegal : legal (.trapa imm) s) :
    Course s (accesses (.trapa imm) s) (exec (.trapa imm) s) fun _ => True := by
  refine .outsideSlot (hlegal.2 rfl) ?_
  simp only [State.enterHandler, State.onAccess_bind]
  exact .access (.access (.access (.done trivial)))

/-- Whatever state TRAPA answers, its own entry or that of an address error, no mask is written. -/
theorem trapa_next {imm : BitVec 8} {s t : State} (hslot : s.delayTarget = none) (h : exec (.trapa imm) s = .next t) :
    ∃ vec ret, s.exceptionEntry vec ret none = .next t := by
  change s.outsideSlot (s.onAccess (s.enterHandler imm (s.pc + 2) none) fun u => .next u) = .next t at h
  rw [State.outsideSlot_none hslot] at h
  rcases State.onAccess_next.mp h with ⟨u, hentry, hu⟩ | ⟨_, _, _, haddr⟩
  · cases hu
    exact ⟨_, _, State.exceptionEntry_next.mpr hentry⟩
  · exact ⟨_, _, haddr⟩

/-- TRAPA is the one instruction whose course is told apart from the others'. -/
theorem trapa_or_not (i : Instr) : (∃ imm, i = .trapa imm) ∨ ∀ imm, i ≠ .trapa imm :=
  (Classical.em (∃ imm, i = .trapa imm)).imp_right not_exists.mp

/-! ### What every instruction does -/

/-- The accesses of every instruction that may run its own course decide its result. -/
theorem exec_decided {i : Instr} {s : State} (hlegal : legal i s) :
    ∃ post, Course s (accesses i s) (exec i s) post := by
  rcases trapa_or_not i with ⟨imm, rfl⟩ | htrap
  · exact ⟨_, trapa_course hlegal⟩
  · exact ⟨_, exec_course hlegal htrap⟩

theorem Course.of_allowed {s : State} {l : List DataAccess} {r : Result} {post : State → Prop}
    (h : Course s l r post) (hl : s.accessOutcome l = .allowed) : ∃ t, r = .next t ∧ post t := by
  rwa [Course, hl] at h

/-- A result that the accesses decide is a state only in two ways. -/
theorem Course.of_next {s t : State} {l : List DataAccess} {r : Result} {post : State → Prop}
    (h : Course s l r post) (hr : r = .next t) : post t ∨ s.addressErrorException = .next t := by
  rw [Course] at h
  split at h
  · obtain ⟨u, hu, hpost⟩ := h
    cases hr.symm.trans hu
    exact .inl hpost
  · exact .inr (h.symm.trans hr)
  · cases hr.symm.trans h

/-- Whatever state an instruction answers, it is one after exception entry without a new mask, or the instruction has
run its own course. -/
theorem exec_next {i : Instr} {s t : State} (h : exec i s = .next t) :
    (∃ vec ret, s.exceptionEntry vec ret none = .next t) ∨ Ran i s t := by
  by_cases hlegal : legal i s
  · rcases trapa_or_not i with ⟨imm, rfl⟩ | htrap
    · exact .inl (trapa_next (hlegal.2 rfl) h)
    · exact ((exec_course hlegal htrap).of_next h).symm.imp_left fun haddr => ⟨_, _, haddr⟩
  · rw [exec_of_not_legal hlegal, State.illegalInstruction_eq] at h
    exact .inl ⟨_, _, h⟩

theorem addressErrorException_eq (s : State) :
    s.addressErrorException = s.exceptionEntry s.cfg.vecCpuAddrErr
      (match s.delayTarget with
       | some d => d
       | none => s.pc + 2) none := by
  rw [State.addressErrorException, State.nextPc]
  cases s.delayTarget <;> rfl

/-- The first access of an instruction, misaligned, is an address error. -/
theorem misalignedTraps_of_access {i : Instr} {s : State} {kind : AccessKind} {bytes : Nat} {a : Word}
    {rest : List DataAccess} (hlegal : legal i s) (hacc : accesses i s = ⟨kind, bytes, a⟩ :: rest) :
    MisalignedTraps i s bytes a := by
  intro hal
  obtain ⟨post, hcourse⟩ := exec_decided hlegal
  rw [hacc, Course, State.accessOutcome, hal] at hcourse
  exact hcourse.trans (addressErrorException_eq s)

/-- Settles O56: the accesses decide, and an address error is taken as the statement says. -/
theorem accessesDecideOutcome : Obligations.AccessesDecideOutcome := by
  intro i s hlegal
  obtain ⟨post, hcourse⟩ := exec_decided hlegal
  rw [Course] at hcourse
  revert hcourse
  cases s.accessOutcome (accesses i s) with
  | allowed => exact fun ⟨t, ht, _⟩ => ⟨t, ht⟩
  | misaligned => exact fun h => h.trans (addressErrorException_eq s)
  | refused kind a => exact id

/-- Settles O30: whether the slot or the CPU refuses it, the answer is the illegal instruction of the slot. -/
theorem slotIllegalInstructions : Obligations.SlotIllegalInstructions := by
  intro i s d hi hd
  rw [exec_rewritesPc_in_slot hi hd, State.illegalInstruction, hd]

/-- Settles O31: the CPU is asked before anything else, by the instruction as by the decoder. -/
theorem sh2InstructionsOnSh1 : Obligations.Sh2InstructionsOnSh1 := by
  intro i s hi hcpu hslot
  refine ⟨?_, ?_⟩
  · rw [exec_sh2Only_on_sh1 hi hcpu, State.illegalInstruction, hslot]
  · rw [decodeWord_encodeWord, Instr.wellFormed, hi]
    rfl

end Sys2Proof.Machine
end

section
/-! PROOF. What holds of every instruction and of every step: the bits and registers it may change, what it leaves in
the record of stores, the invariant, the parameters.  Each is read off the course of an instruction, the state after
exception entry and the state after a reset. -/
namespace Sys2Proof.Machine

/-! ### What an instruction that has run its own course has left -/

theorem Ending.frame {w : Writes} {s u t : State} {b : Bool} (e : Ending s u b t) (f : Frame w s u) : Frame w s t := by
  cases e <;> exact { f with }

theorem Ran.frame {i : Instr} {s t : State} (h : Ran i s t) : Frame (mayWrite i s) s t := by
  obtain ⟨u, hworks, hends⟩ := h
  exact hends.frame hworks.frame

theorem alignedHalf_add_two (a : Word) : alignedHalf (a + 2) = alignedHalf a := by
  have h : (a + 2).toNat % 2 = a.toNat % 2 := by bv_omega
  rw [alignedHalf, alignedHalf, h]

theorem slotGuarded_of_none {s : State} (h : s.delayTarget = none) : s.slotGuarded := fun hne => absurd h hne

theorem untaken_of_false {s : State} (h : s.slotAfterUntaken = false) : s.untakenFallsThrough :=
  fun htrue => absurd (h.symm.trans htrue) (by decide)

/-- The end of an instruction keeps what its work kept, guards the slot of a branch that it leaves pending, and
puts the CPU asleep only with nothing pending. -/
theorem Ran.inv {i : Instr} {s t : State} (h : Ran i s t) (hs : s.Inv) (hrun : s.power = .run)
    (hpc : alignedHalf s.pc = true) : t.Inv := by
  obtain ⟨u, hworks, hends⟩ := h
  have hmem := hworks.memWf hs.mem
  have hsr := hworks.srReserved hs.sr
  have hmach := hworks.machFits hs.mach
  have hurun : u.power ≠ .sleep := by rw [hworks.power, hrun]; decide
  have hslot : alignedHalf (u.pc + 2) = true := by rw [hworks.pc, alignedHalf_add_two, hpc]
  generalize jumpsAtOnce i s = jumps at hends
  have hawake : ∀ v : State, v.power = u.power → v.sleepClear := fun v hv h => absurd (hv ▸ h) hurun
  cases hends with
  | advance _ => exact ⟨hmem, hsr, hmach, slotGuarded_of_none rfl, untaken_of_false rfl, hawake _ rfl⟩
  | sleep => exact ⟨hmem, hsr, hmach, slotGuarded_of_none rfl, untaken_of_false rfl, fun _ => ⟨rfl, rfl⟩⟩
  | branchNow _ _ => exact ⟨hmem, hsr, hmach, slotGuarded_of_none rfl, untaken_of_false rfl, hawake _ rfl⟩
  | delayed _ _ => exact ⟨hmem, hsr, hmach, fun _ => ⟨rfl, hslot⟩, untaken_of_false rfl, hawake _ rfl⟩
  | conditional _ taken disp =>
    refine ⟨hmem, hsr, hmach, fun _ => ⟨rfl, hslot⟩, fun huntaken => ?_, hawake _ rfl⟩
    obtain ⟨htaken, hcheck⟩ : taken = false ∧ u.cfg.bcsSlotCheckAlways = true := by
      simpa [State.delayedConditional] using huntaken
    change u.conditionalTarget taken disp = some (u.pc + 2 + 2)
    rw [State.conditionalTarget.eq_def, hcheck, htaken, BitVec.add_assoc]
    rfl

theorem Ran.srReserved {i : Instr} {s t : State} (h : Ran i s t) (hs : s.srReservedZero) : t.srReservedZero := by
  obtain ⟨u, hworks, hends⟩ := h
  have hsr := hworks.srReserved hs
  generalize jumpsAtOnce i s = jumps at hends
  cases hends <;> exact hsr

/-- The record of stores when the work is done and the instruction ends by the sequential advance. -/
theorem Works.storesAfterAdvance {w : Writes} {l : List StoreRecord} {s u : State} (c : Works w l s u) :
    u.storesAfterAdvance = if s.delayTarget.isSome && !s.slotAfterUntaken then [] else l ++ s.recentStores := by
  rw [State.storesAfterAdvance, c.delayTarget, c.slotAfterUntaken, c.recentStores]
  cases s.delayTarget <;> cases s.slotAfterUntaken <;> rfl

theorem branchesHere_eq (i : Instr) (s : State) :
    branchesHere i s = if s.delayTarget.isSome then !s.slotAfterUntaken else jumpsAtOnce i s := by
  unfold branchesHere
  cases s.delayTarget with
  | some _ => rfl
  | none => cases i <;> rfl

theorem Ran.recentStores {i : Instr} {s t : State} (h : Ran i s t) :
    t.recentStores = if branchesHere i s then [] else storesOf (accesses i s) ++ s.recentStores := by
  obtain ⟨u, hworks, hends⟩ := h
  rw [branchesHere_eq]
  generalize jumpsAtOnce i s = jumps at hends
  cases hends with
  | advance _ | sleep =>
    refine hworks.storesAfterAdvance.trans ?_
    cases s.delayTarget.isSome <;> rfl
  | branchNow hslot _ => rw [hslot]; rfl
  | delayed hslot _ | conditional hslot _ _ => rw [hslot]; exact hworks.recentStores


/-! ### What exception entry leaves -/

theorem State.frame_of_exceptionEntry {s t : State} {vec : BitVec 8} {ret : Word} {mask : Option (BitVec 4)}
    (h : s.exceptionEntry vec ret mask = .next t) :
    Frame { regs := [15], srBits := entrySrBits mask, mem := [(s.reg 15 - 8, 8)] } s t := by
  obtain ⟨-, rfl⟩ := State.exceptionEntry_iff.mp h
  exact s.frame_afterEntry vec ret mask

/-- The bits of the mask exist, so an interrupt writes no reserved bit. -/
theorem State.srReserved_afterEntry {s : State} (hs : s.srReservedZero) (vec : BitVec 8) (ret : Word)
    (mask : Option (BitVec 4)) : (s.afterEntry vec ret mask).srReservedZero := by
  have hmask : ∀ j < 32, srMask.getLsbD j = false → j ∉ [4, 5, 6, 7] := by decide
  refine (State.srReservedZero_iff _).mpr fun j hj hj0 => ?_
  have hkept : j ∉ entrySrBits mask := by
    cases mask with
    | none => exact List.not_mem_nil
    | some _ => exact hmask j hj hj0
  rw [(s.frame_afterEntry vec ret mask).sr j hj hkept]
  exact s.srReservedZero_iff.mp hs j hj hj0

theorem State.inv_of_exceptionEntry {s t : State} {vec : BitVec 8} {ret : Word} {mask : Option (BitVec 4)}
    (hs : s.Inv) (h : s.exceptionEntry vec ret mask = .next t) : t.Inv := by
  obtain ⟨-, rfl⟩ := State.exceptionEntry_iff.mp h
  exact ⟨s.pushedMem_wf ret hs.mem, State.srReserved_afterEntry hs.sr vec ret mask, hs.mach, slotGuarded_of_none rfl,
    untaken_of_false rfl, fun h => by cases h⟩

/-! ### The obligations about single instructions -/

/-- The bits of SR that exist are those that a load of SR writes. -/
theorem srMask_false_of_not_loaded {j : Nat} (hj : j < 32) (h : j ∉ [0, 1, 4, 5, 6, 7, 8, 9]) :
    srMask.getLsbD j = false := by
  have hall : ∀ k < 32, k ∉ [0, 1, 4, 5, 6, 7, 8, 9] → srMask.getLsbD k = false := by decide
  exact hall j hj h

theorem statusBitsWritten_of_loadsSr {i : Instr} (h : loadsSr i = true) :
    statusBitsWritten i = [0, 1, 4, 5, 6, 7, 8, 9] := by
  cases i with
  | ldcSr _ | ldcLSr _ | rte => rfl
  | _ => cases h

/-- By its frame an instruction changes the bits named; a load of SR writes all bits but keeps the reserved ones 0;
exception entry without a mask changes none. -/
theorem exec_sr_unchanged {i : Instr} {s t : State} (hs : s.srReservedZero) (h : exec i s = .next t) {j : Nat}
    (hj : j < 32) (hnot : j ∉ statusBitsWritten i) : t.sr.getLsbD j = s.sr.getLsbD j := by
  rcases exec_next h with ⟨vec, ret, hentry⟩ | hran
  · exact (State.frame_of_exceptionEntry hentry).sr j hj List.not_mem_nil
  · cases hload : loadsSr i with
    | false => exact hran.frame.sr j hj (by rwa [mayWrite, hload])
    | true =>
      rw [statusBitsWritten_of_loadsSr hload] at hnot
      have hmask := srMask_false_of_not_loaded hj hnot
      rw [t.srReservedZero_iff.mp (hran.srReserved hs) j hj hmask, s.srReservedZero_iff.mp hs j hj hmask]

/-- What exception entry leaves of the five registers. -/
theorem State.specials_of_exceptionEntry {s t : State} {vec : BitVec 8} {ret : Word} {mask : Option (BitVec 4)}
    (h : s.exceptionEntry vec ret mask = .next t) :
    t.mach = s.mach ∧ t.macl = s.macl ∧ t.pr = s.pr ∧ t.gbr = s.gbr ∧ t.vbr = s.vbr :=
  have f := State.frame_of_exceptionEntry h
  ⟨f.mach rfl, f.macl rfl, f.pr rfl, f.gbr rfl, f.vbr rfl⟩

/-- A register that an instruction changes is one that it may write: exception entry changes none of the five. -/
theorem mayWrite_of_exec {i : Instr} {s t : State} (h : exec i s = .next t) :
    (t.mach ≠ s.mach → (mayWrite i s).mach = true) ∧ (t.macl ≠ s.macl → (mayWrite i s).macl = true) ∧
    (t.pr ≠ s.pr → (mayWrite i s).pr = true) ∧ (t.gbr ≠ s.gbr → (mayWrite i s).gbr = true) ∧
    (t.vbr ≠ s.vbr → (mayWrite i s).vbr = true) := by
  rcases exec_next h with ⟨vec, ret, hentry⟩ | hran
  · obtain ⟨hmach, hmacl, hpr, hgbr, hvbr⟩ := State.specials_of_exceptionEntry hentry
    exact ⟨fun h => absurd hmach h, fun h => absurd hmacl h, fun h => absurd hpr h, fun h => absurd hgbr h,
      fun h => absurd hvbr h⟩
  · have f := hran.frame
    exact ⟨fun h => Bool.of_not_eq_false fun hw => h (f.mach hw), fun h => Bool.of_not_eq_false fun hw => h (f.macl hw),
      fun h => Bool.of_not_eq_false fun hw => h (f.pr hw), fun h => Bool.of_not_eq_false fun hw => h (f.gbr hw),
      fun h => Bool.of_not_eq_false fun hw => h (f.vbr hw)⟩

theorem writesMac_true {i : Instr} (h : writesMac i = true) :
    i = .clrmac ∨ ∃ m n, i = .dmulsL m n ∨ i = .dmuluL m n ∨ i = .macL m n ∨ i = .macW m n := by
  cases i with
  | clrmac => exact .inl rfl
  | dmulsL m n | dmuluL m n | macL m n | macW m n => exact .inr ⟨m, n, by simp⟩
  | _ => cases h

theorem writesMach_true {i : Instr} (h : writesMach i = true) : ∃ m, i = .ldsMach m ∨ i = .ldsLMach m := by
  cases i with
  | ldsMach m | ldsLMach m => exact ⟨m, by simp⟩
  | _ => cases h

theorem writesMacl_true {i : Instr} (h : writesMacl i = true) :
    (∃ m n, i = .mulL m n ∨ i = .mulsW m n ∨ i = .muluW m n) ∨ ∃ m, i = .ldsMacl m ∨ i = .ldsLMacl m := by
  cases i with
  | mulL m n | mulsW m n | muluW m n => exact .inl ⟨m, n, by simp⟩
  | ldsMacl m | ldsLMacl m => exact .inr ⟨m, by simp⟩
  | _ => cases h

theorem writesPr_true {i : Instr} (h : writesPr i = true) :
    (∃ d, i = .bsr d) ∨ ∃ m, i = .bsrf m ∨ i = .jsr m ∨ i = .ldsPr m ∨ i = .ldsLPr m := by
  cases i with
  | bsr d => exact .inl ⟨d, rfl⟩
  | bsrf m | jsr m | ldsPr m | ldsLPr m => exact .inr ⟨m, by simp⟩
  | _ => cases h

theorem writesGbr_true {i : Instr} (h : writesGbr i = true) : ∃ m, i = .ldcGbr m ∨ i = .ldcLGbr m := by
  cases i with
  | ldcGbr m | ldcLGbr m => exact ⟨m, by simp⟩
  | _ => cases h

theorem writesVbr_true {i : Instr} (h : writesVbr i = true) : ∃ m, i = .ldcVbr m ∨ i = .ldcLVbr m := by
  cases i with
  | ldcVbr m | ldcLVbr m => exact ⟨m, by simp⟩
  | _ => cases h

/-- Settles O58: a register that changes is one that the instruction may write, and these are the instructions that may;
an address error is exception entry. -/
theorem specialRegisterWriters : Obligations.SpecialRegisterWriters := by
  refine ⟨fun i s t h => ?writers, fun s t vec ret mask h => State.specials_of_exceptionEntry h,
    fun i s t haddr h => State.specials_of_exceptionEntry (haddr.symm.trans h)⟩
  case writers =>
    obtain ⟨hmach, hmacl, hpr, hgbr, hvbr⟩ := mayWrite_of_exec h
    refine ⟨fun hne => ?mach, fun hne => ?macl, fun hne => writesPr_true (hpr hne),
      fun hne => writesGbr_true (hgbr hne), fun hne => writesVbr_true (hvbr hne)⟩
    case mach =>
      rcases Bool.or_eq_true_iff.mp (hmach hne) with hmac | hmach
      · exact (writesMac_true hmac).imp_right .inl
      · exact .inr (.inr (writesMach_true hmach))
    case macl =>
      rcases Bool.or_eq_true_iff.mp (hmacl hne) with hmac | hmacl
      · refine (writesMac_true hmac).imp_right fun ⟨m, n, hi⟩ => .inl ⟨m, n, ?_⟩
        rcases hi with rfl | rfl | rfl | rfl <;> simp
      · refine .inr ((writesMacl_true hmacl).imp_left fun ⟨m, n, hi⟩ => ⟨m, n, ?_⟩)
        rcases hi with rfl | rfl | rfl <;> simp

/-! ### Stores into code -/

/-- A running CPU that takes no reset and no interrupt executes an instruction. -/
theorem step_run {s : State} (hreset : s.resetRequest = none) (hrun : s.power = .run) (hnone : s.acceptedNow = none) :
    step s = instructionStep s.passBoundary := by
  rw [step, hreset, hrun]
  simp only [hnone]

/-- An admitted fetch from an even address of a region that is not little-endian. -/
theorem State.fetch_admitted {s : State} (hal : alignedHalf s.pc = true) (hadm : memAdmits s.cfg s.pc 2 .fetch = true)
    (hbig : littleEndian s.cfg s.pc = false) :
    s.fetch = if s.stale s.pc then .fault (.staleFetch s.pc) else .code (s.mem.half false s.pc) := by
  rw [State.fetch, if_pos hal, if_pos hadm, hbig, if_neg Bool.false_ne_true]

theorem State.passBoundary_fetch (s : State) : s.passBoundary.fetch = s.fetch := rfl

/-- The stop of U6, for any running state whose next word a recent store covers. -/
theorem step_stale {s : State} (hreset : s.resetRequest = none) (hrun : s.power = .run)
    (hnone : s.acceptedNow = none) (hal : alignedHalf s.pc = true) (hadm : memAdmits s.cfg s.pc 2 .fetch = true)
    (hbig : littleEndian s.cfg s.pc = false) (hstale : s.stale s.pc = true) :
    step s = .fault (.staleFetch s.pc) := by
  have hfetch : s.fetch = .fault (.staleFetch s.pc) := (State.fetch_admitted hal hadm hbig).trans (if_pos hstale)
  rw [step_run hreset hrun hnone, instructionStep, State.passBoundary_fetch, hfetch]

theorem ageRecords_eq (l : List StoreRecord) :
    ageRecords l = (l.filter fun r => 1 < r.left).map fun r => { r with left := r.left - 1 } := by
  induction l with
  | nil => rfl
  | cons r rest ih =>
    by_cases h : r.left ≤ 1
    · simp [ageRecords, h, ih]
    · simp [ageRecords, h, ih, Nat.lt_of_not_le h]

theorem stale_iff (s : State) (a : Word) :
    s.stale a = true ↔ ∃ r ∈ s.recentStores, r.addr.toNat < a.toNat + 2 ∧ a.toNat < r.addr.toNat + r.bytes := by
  simp [State.stale, StoreRecord.covers]

/-- MOV.W outside a slot, when the store may be made. -/
theorem exec_movWStore {s : State} {m n : Reg} (hcan : s.can .write 2 (s.reg n)) :
    exec (.movWStore m n) s = .next (s.stored (s.reg n) 2
      (s.mem.setHalf (littleEndian s.cfg (s.reg n)) (s.reg n) (lowHalf (s.reg m)))).finish :=
  State.storeHalf_ok (State.writeHalf_of_can hcan _)

/-- A store of a word covers the word. -/
theorem stale_of_stored {s : State} {a : Word} {l : List StoreRecord} (h : s.recentStores = ⟨a, 2, 3⟩ :: l) :
    s.stale a = true :=
  (stale_iff s a).mpr ⟨⟨a, 2, 3⟩, h ▸ List.mem_cons_self, Nat.lt_add_of_pos_right Nat.two_pos,
    Nat.lt_add_of_pos_right Nat.two_pos⟩

/-- Settles O49: the stop, the covering and the ageing are the model's; what is recorded is read off the course of the
instruction; and MOV.W into the next word records a store that covers it. -/
theorem storeIntoNextWordStops : Obligations.StoreIntoNextWordStops := by
  refine ⟨fun s hreset hrun hnone hal hadm hbig hstale => step_stale hreset hrun hnone hal hadm hbig hstale,
    stale_iff, fun i s hlegal htrap hallowed => ?recorded, fun s => ageRecords_eq s.recentStores,
    fun s t m n hexec hslot hn hcan hadm hbig hreset hrun hnone => ?nextWord⟩
  case recorded =>
    obtain ⟨t, ht, hran⟩ := (exec_course hlegal htrap).of_allowed hallowed
    exact ⟨t, ht, hran.recentStores⟩
  case nextWord =>
    rw [← hn] at hcan
    cases hexec.symm.trans (exec_movWStore hcan)
    set t := (s.stored (s.reg n) 2 _).finish
    have hpc : t.pc = s.pc + 2 := by
      change s.nextPc = _
      rw [State.nextPc, hslot]
    have hrecord : t.recentStores = ⟨s.pc + 2, 2, 3⟩ :: s.recentStores := by
      rw [← hn]
      exact State.storesAfterAdvance_none hslot
    rw [← hpc] at hadm hbig hrecord ⊢
    exact step_stale hreset hrun hnone (hpc ▸ hn ▸ hcan.1) hadm hbig (stale_of_stored hrecord)

/-! ### What a step does -/

/-- Between `s` and `u` lies the book-keeping of a boundary only: the platform's requests, the counts and waits of the
schedule, the record of stores. -/
def Bookkept (s u : State) : Prop :=
  ∃ pending last count passed waits recent,
    u = { s with
      pending := pending
      lastAccepted := last
      acceptedCount := count
      passedCount := passed
      waits := waits
      recentStores := recent }

theorem bookkept_passBoundary (s : State) : Bookkept s s.passBoundary := ⟨_, _, _, _, _, _, rfl⟩

theorem bookkept_passBoundary_ageStores (s : State) : Bookkept s s.passBoundary.ageStores := ⟨_, _, _, _, _, _, rfl⟩

theorem bookkept_reportAccepted (s : State) (q : IntRequest) : Bookkept s (s.reportAccepted q) :=
  ⟨_, _, _, _, _, _, rfl⟩

theorem Bookkept.cfg {s u : State} (h : Bookkept s u) : u.cfg = s.cfg := by
  obtain ⟨_, _, _, _, _, _, rfl⟩ := h
  rfl

/-- The invariant does not speak of the books. -/
theorem Bookkept.inv {s u : State} (h : Bookkept s u) (hs : s.Inv) : u.Inv := by
  obtain ⟨_, _, _, _, _, _, rfl⟩ := h
  exact ⟨hs.mem, hs.sr, hs.mach, hs.slot, hs.untaken, hs.sleep⟩

theorem State.fetch_code_aligned {s : State} {w : Half} (h : s.fetch = .code w) : alignedHalf s.pc = true := by
  by_contra hal
  rw [State.fetch, if_neg hal] at h
  cases h

/-- The four ways in which a step answers a state: a reset; asleep, nothing; exception entry, for an interrupt, a fetch
or an instruction; or an instruction fetched from an even address has run its own course. -/
theorem step_courses {s t : State} (h : step s = .next t) :
    (∃ k, s.takeReset k = .next t) ∨ t = s ∨
    (∃ u vec ret mask, Bookkept s u ∧ u.exceptionEntry vec ret mask = .next t) ∨
    ∃ i, s.power = .run ∧ alignedHalf s.pc = true ∧ Ran i s.passBoundary.ageStores t := by
  rcases step_next.mp h with ⟨k, -, hreset⟩ | ⟨-, -, hsleep⟩ | ⟨-, -, q, -, haccept⟩ | ⟨-, hrun, -, hinstr⟩
  · exact .inl ⟨k, hreset⟩
  · rw [State.sleepStep] at hsleep
    split at hsleep
    · exact .inr (.inr (.inl ⟨_, _, _, _, bookkept_reportAccepted s _, hsleep⟩))
    · cases hsleep
      exact .inr (.inl rfl)
  · exact .inr (.inr (.inl ⟨_, _, _, _, bookkept_reportAccepted s q, haccept⟩))
  · refine .inr (.inr ?_)
    rcases instructionStep_next.mp hinstr with ⟨-, haddr⟩ | ⟨w, i, hfetch, -, hexec⟩ | ⟨w, e, -, -, hillegal⟩
    · exact .inl ⟨_, _, _, _, bookkept_passBoundary s, haddr⟩
    · rcases exec_next hexec with ⟨vec, ret, hentry⟩ | hran
      · exact .inl ⟨_, _, _, _, bookkept_passBoundary_ageStores s, hentry⟩
      · exact .inr ⟨i, hrun, State.fetch_code_aligned (s := s) hfetch, hran⟩
    · rw [State.illegalInstruction_eq] at hillegal
      exact .inl ⟨_, _, _, _, bookkept_passBoundary_ageStores s, hillegal⟩

/-! ### The invariant and the parameters -/

/-- Settles O53: memory is empty, nothing is pending, and the two registers that the invariant speaks of are closed
terms. -/
theorem resetInvariant : Obligations.ResetInvariant where
  mem := State.reset_mem_wf
  sr := by
    change State.reset.sr &&& ~~~srMask = 0
    decide
  mach := fun _ => rfl
  slot := slotGuarded_of_none rfl
  untaken := untaken_of_false rfl
  sleep := fun h => by cases h

/-- A reset keeps memory and gives every other field of the invariant its reset value. -/
theorem State.inv_of_takeReset {s t : State} {k : ResetKind} (hs : s.Inv) (h : s.takeReset k = .next t) : t.Inv := by
  obtain ⟨pc, sp, -, rfl⟩ := State.takeReset_next.mp h
  exact ⟨hs.mem, resetInvariant.sr, fun _ => rfl, slotGuarded_of_none rfl, untaken_of_false rfl, fun h => by cases h⟩

theorem State.cfg_of_takeReset {s t : State} {k : ResetKind} (h : s.takeReset k = .next t) : t.cfg = s.cfg := by
  obtain ⟨pc, sp, -, rfl⟩ := State.takeReset_next.mp h
  rfl

/-- Settles O54: each of the four ways keeps the invariant, and none of them looks at the instruction. -/
theorem stepKeepsInvariant : Obligations.StepKeepsInvariant := by
  intro s t hs h
  rcases step_courses h with ⟨k, hreset⟩ | rfl | ⟨u, vec, ret, mask, hbooks, hentry⟩ | ⟨i, hrun, hpc, hran⟩
  · exact State.inv_of_takeReset hs hreset
  · exact hs
  · exact State.inv_of_exceptionEntry (hbooks.inv hs) hentry
  · exact hran.inv ((bookkept_passBoundary_ageStores s).inv hs) hrun hpc

/-- Settles O55: a frame leaves the parameters, and so do a reset and the books. -/
theorem stepKeepsParameters : Obligations.StepKeepsParameters := by
  intro s t h
  rcases step_courses h with ⟨k, hreset⟩ | rfl | ⟨u, vec, ret, mask, hbooks, hentry⟩ | ⟨i, -, -, hran⟩
  · exact State.cfg_of_takeReset hreset
  · rfl
  · exact (State.frame_of_exceptionEntry hentry).cfg.trans hbooks.cfg
  · exact hran.frame.cfg

/-- Settles O57: `exec_sr_unchanged`, with the reserved bits 0 before. -/
theorem statusBitsWritten : Obligations.StatusBitsWritten :=
  fun _ _ _ hs h _ hj hnot => exec_sr_unchanged hs h hj hnot

end Sys2Proof.Machine
end

section
/-! PROOF. What the families of spec/41_arithmetic.md and spec/42_multiply.md still owe: DIV1 as a step on 33-bit
numbers, DT, and the multiplications that accumulate.  MAC.L and MAC.W read two operands, work on registers in one way,
and differ in how they accumulate. -/
namespace Sys2Proof.Machine

/-! ### The division step in 33 bits -/

/-- Twice a register plus T, cut into the bit shifted out and the 32 bits that stay (R188). -/
theorem shiftedIn_toNat (a : Word) (t : Bool) :
    ((a <<< 1) ||| (if t then 1 else 0)).toNat + 2 ^ 32 * bit (a.getLsbD 31) = 2 * a.toNat + bit t := by
  have hlow : ((a <<< 1) ||| (if t then 1 else 0)).toNat = 2 * (a.toNat % 2 ^ 31) + bit t := by
    have hbit : (if t then 1 else 0 : Word).toNat = bit t := by cases t <;> rfl
    have hshift : (a <<< 1).toNat = 2 ^ 1 * (a.toNat % 2 ^ 31) := by
      rw [BitVec.toNat_shiftLeft, Nat.shiftLeft_eq]
      omega
    rw [BitVec.toNat_or, hbit, hshift, ← Nat.two_pow_add_eq_or_of_lt (Nat.lt_succ_of_le (bit_le_one t))]
  have hout : a.getLsbD 31 = decide (2 ^ 31 ≤ a.toNat) :=
    (BitVec.msb_eq_getLsbD_last a).symm.trans (BitVec.msb_eq_decide a)
  have ha := a.isLt
  rw [hlow, hout, bit_decide]
  split <;> omega

/-- The borrow of a subtraction, found by comparing the result with what it was taken from (R188). -/
theorem sub_toNat_borrow (x d : Word) :
    (x - d).toNat + d.toNat = x.toNat + 2 ^ 32 * bit (decide ((x - d).toNat > x.toNat)) := by
  have hx := x.isLt
  have hd := d.isLt
  rw [bit_decide, BitVec.toNat_sub]
  split <;> omega

/-- The carry of an addition, found by comparing the sum with one summand (R188). -/
theorem add_toNat_carry (x d : Word) :
    (x + d).toNat + 2 ^ 32 * bit (decide ((x + d).toNat < x.toNat)) = x.toNat + d.toNat := by
  have hx := x.isLt
  have hd := d.isLt
  rw [bit_decide, BitVec.toNat_add]
  split <;> omega

/-- The new Q is the sum of the bit shifted out, the carry or borrow and M, modulo 2 (R188). -/
theorem bit_newQ (out carry m : Bool) :
    bit (if m then !(xor out carry) else xor out carry) = (bit out + bit carry + bit m) % 2 := by
  cases out <;> cases carry <;> cases m <;> rfl

/-- Settles O15: the bit shifted out and the carry or borrow are what the 33-bit numbers have above the register, and
the new Q is their sum with M modulo 2. -/
theorem divisionStepIn33Bits : Obligations.DivisionStepIn33Bits := by
  intro s t m n hne hexec divisor shifted
  obtain ⟨hstep, -⟩ := divisionStep
  obtain ⟨u, hu, hreg, hq, ht, -, -⟩ := hstep s m n
  cases hexec.symm.trans hu
  refine ⟨?_, hq ▸ ht⟩
  rw [hreg, hq, bit_newQ, if_neg hne]
  have hshift := shiftedIn_toNat (s.reg n) s.tBit
  have hm := bit_le_one s.mBit
  have hout := bit_le_one ((s.reg n).getLsbD 31)
  generalize (s.reg n <<< 1) ||| (if s.tBit then 1 else 0) = x at hshift ⊢
  by_cases hqm : s.qBit = s.mBit
  · have hsub := sub_toNat_borrow x (s.reg m)
    have hborrow := bit_le_one (decide ((x - s.reg m).toNat > x.toNat))
    simp only [hqm, if_true, divisor, shifted]
    omega
  · have hadd := add_toNat_carry x (s.reg m)
    have hcarry := bit_le_one (decide ((x + s.reg m).toNat < x.toNat))
    simp only [hqm, if_false, divisor, shifted]
    omega

/-- Settles O16, from what DT does once the CPU has it. -/
theorem decrementAndTest : Obligations.DecrementAndTest := by
  refine ⟨fun s n hcpu => ?_, fun n => hasCode_of_encodeWord (code_field8 4 n.toField 0x10)⟩
  have hzero : (s.reg n - 1 == 0) = decide (s.reg n = 1) := by
    rw [Bool.eq_iff_iff, beq_iff_eq, decide_eq_true_iff]
    exact sub_eq_zero
  rw [← hzero]
  exact writesRegT_of_exec (State.onSh2_sh2 hcpu _)

/-! ### Multiply and accumulate -/

/-- A number held within bounds, in the order of the spec and as a maximum of a minimum. -/
theorem clamp_eq {lo hi : Int} (h : lo ≤ hi) (i : Int) : clamp lo hi i = max lo (min hi i) := by
  unfold clamp
  split
  · omega
  · split <;> omega

/-- A number held within bounds that a word can hold is held by the word. -/
theorem toInt_ofInt_clamp {w : Nat} {lo hi : Int} (hw : 0 < w) (h : lo ≤ hi) (hlo : -2 ^ (w - 1) ≤ lo)
    (hhi : hi < 2 ^ (w - 1)) (i : Int) : (BitVec.ofInt w (clamp lo hi i)).toInt = max lo (min hi i) := by
  rw [clamp_eq h]
  exact BitVec.toInt_ofInt_eq_self hw (by omega) (by omega)

/-- A word read as a signed number is the same number after its sign extension. -/
theorem toInt_sext16 (v : Half) : (sext16 v).toInt = v.toInt := BitVec.toInt_signExtend_of_le (by decide)

/-- The state when both operands of a multiply-and-accumulate have been read: each register has gone up by the size. -/
def State.macRegs (s : State) (m n : Reg) (size : Word) : State :=
  (s.setReg n (s.reg n + size)).setReg m (s.macSecond m n size + size)

theorem State.macRegs_reg_n (s : State) (m n : Reg) (size : Word) :
    (s.macRegs m n size).reg n = s.reg n + (if m = n then size + size else size) := by
  rw [State.macRegs, State.setReg_reg, State.setReg_reg_same, State.macSecond]
  by_cases h : m = n
  · rw [if_pos h, if_pos h, if_pos h.symm, BitVec.add_assoc]
  · rw [if_neg (Ne.symm h), if_neg h]

theorem State.macRegs_reg_m (s : State) (m n : Reg) (size : Word) :
    (s.macRegs m n size).reg m = s.reg m + (if m = n then size + size else size) := by
  rw [State.macRegs, State.setReg_reg_same, State.macSecond]
  by_cases h : m = n
  · rw [if_pos h, if_pos h, h, BitVec.add_assoc]
  · rw [if_neg h, if_neg h]

/-- Both registers and the accumulator may be written. -/
abbrev macWrites (m n : Reg) : Writes := { regs := [m, n], mach := true, macl := true }

theorem State.works_macRegs (s : State) (m n : Reg) (size : Word) : Works (macWrites m n) [] s (s.macRegs m n size) :=
  ((Works.refl _ s).setReg (.tail _ (.head _)) _).setReg (.head _) _

/-! #### MAC.L -/

theorem State.accumulateLong_regs (s : State) (a b : Word) : (s.accumulateLong a b).regs = s.regs := by
  simp only [State.accumulateLong]
  split <;> rfl

/-- With S = 0 the sum is kept modulo 2^64 (R218). -/
theorem State.accumulateLong_wraps {s : State} (hs : s.sBit = false) (a b : Word) :
    ((s.accumulateLong a b).mach ++ (s.accumulateLong a b).macl : BitVec 64) =
      BitVec.ofInt 64 (s.mac.toInt + a.toInt * b.toInt) := by
  simp only [State.accumulateLong, hs, Bool.false_eq_true, if_false]
  exact s.setMac_mach_append_macl _

/-- With S = 1 the sum is held within 48 bits (R219). -/
theorem State.accumulateLong_saturates {s : State} (hs : s.sBit = true) (a b : Word) :
    ((s.accumulateLong a b).mach ++ (s.accumulateLong a b).macl : BitVec 64).toInt =
      max (-2 ^ 47) (min (2 ^ 47 - 1) (s.mac.toInt + a.toInt * b.toInt)) := by
  simp only [State.accumulateLong, hs, if_true]
  rw [s.setMac_mach_append_macl]
  exact toInt_ofInt_clamp (by decide) (by decide) (by decide) (by decide) _

theorem exec_macL_of_can {s : State} {m n : Reg} (hcpu : s.cfg.cpu = .sh2) (hn : s.can .read 4 (s.reg n))
    (hm : s.can .read 4 (s.macSecond m n 4)) :
    exec (.macL m n) s = .next
      ((s.macRegs m n 4).accumulateLong (s.loaded 4 (s.reg n)) (s.loaded 4 (s.macSecond m n 4))).finish := by
  rw [exec_macL, State.onSh2_sh2 hcpu, State.readLong_of_can hn, State.onAccess_ok, State.readLong_of_can hm]
  rfl

/-- Settles O18: the second longword is read after the first register went up, which matters for m = n only. -/
theorem macLong : Obligations.MacLong := by
  refine ⟨fun s m n hcpu hn hm => ?macL, fun m n => hasCode_of_encodeWord rfl⟩
  case macL =>
    have hworks := (s.works_macRegs m n 4).accumulateLong rfl rfl hcpu (s.loaded 4 (s.reg n))
      (s.loaded 4 (s.macSecond m n 4))
    have hregs : ∀ r, ((s.macRegs m n 4).accumulateLong (s.loaded 4 (s.reg n))
        (s.loaded 4 (s.macSecond m n 4))).finish.reg r = (s.macRegs m n 4).reg r := fun r =>
      congrArg (fun regs => regs[r.val]) (State.accumulateLong_regs _ _ _)
    refine ⟨_, exec_macL_of_can hcpu hn hm, fun hs => ?wraps, fun hs => ?saturates, ?regN, ?regM, hworks.finished⟩
    case wraps => exact State.accumulateLong_wraps (s := s.macRegs m n 4) hs _ _
    case saturates => exact State.accumulateLong_saturates (s := s.macRegs m n 4) hs _ _
    case regN => exact (hregs n).trans (s.macRegs_reg_n m n 4)
    case regM => exact (hregs m).trans (s.macRegs_reg_m m n 4)

/-! #### MAC.W -/

/-- The two words read, with their sign. -/
theorem exec_macW_of_can {s : State} {m n : Reg} (hn : s.can .read 2 (s.reg n))
    (hm : s.can .read 2 (s.macSecond m n 2)) :
    exec (.macW m n) s = .next (if s.sBit
      then (s.macRegs m n 2).accumulateHalfSaturating
        ((s.loaded 2 (s.reg n)).toInt * (s.loaded 2 (s.macSecond m n 2)).toInt)
      else (s.macRegs m n 2).accumulateHalf
        ((s.loaded 2 (s.reg n)).toInt * (s.loaded 2 (s.macSecond m n 2)).toInt)).finish := by
  have hval : ∀ a, (s.loaded 2 a).toInt = (s.mem.half (littleEndian s.cfg a) a).toInt := fun a => toInt_sext16 _
  rw [exec_macW, State.readHalf_of_can hn, State.onAccess_ok, State.readHalf_of_can hm, State.onAccess_ok, hval, hval]
  rfl

theorem State.accumulateHalf_regs (s : State) (p : Int) : (s.accumulateHalf p).regs = s.regs := by
  unfold State.accumulateHalf
  cases s.cfg.cpu <;> rfl

/-- On the SH-2 the sum is kept modulo 2^64 (R220). -/
theorem State.accumulateHalf_sh2 {s : State} (hcpu : s.cfg.cpu = .sh2) (p : Int) :
    ((s.accumulateHalf p).mach ++ (s.accumulateHalf p).macl : BitVec 64) = BitVec.ofInt 64 (s.mac.toInt + p) := by
  simp only [State.accumulateHalf, hcpu]
  exact s.setMac_mach_append_macl _

/-- On the SH-1 it is kept modulo 2^42, and MACH is the sign extension of the upper ten of the 42 bits (R221). -/
theorem State.accumulateHalf_sh1 {s : State} (hcpu : s.cfg.cpu = .sh1) (p : Int) :
    ((s.accumulateHalf p).mach.extractLsb' 0 10 ++ (s.accumulateHalf p).macl : BitVec 42) =
        BitVec.ofInt 42 ((s.mach.extractLsb' 0 10 ++ s.macl : BitVec 42).toInt + p) ∧
      (s.accumulateHalf p).mach = sext10 ((s.accumulateHalf p).mach.extractLsb' 0 10) := by
  simp only [State.accumulateHalf, hcpu]
  rw [extractLsb'_sext10]
  refine ⟨?_, rfl⟩
  rw [BitVec.extractLsb'_append_extractLsb'_eq_extractLsb' (by rfl), BitVec.extractLsb'_eq_self]

/-- Settles O19, one lemma for each CPU. -/
theorem macWord : Obligations.MacWord := by
  refine ⟨fun s m n hs hn hm => ?macW, fun m n => hasCode_of_encodeWord rfl⟩
  case macW =>
    intro p
    have hexec := exec_macW_of_can hn hm
    rw [hs, if_neg Bool.false_ne_true] at hexec
    have hworks := (s.works_macRegs m n 2).accumulateHalf rfl rfl p
    have hregs : ∀ r, ((s.macRegs m n 2).accumulateHalf p).finish.reg r = (s.macRegs m n 2).reg r := fun r =>
      congrArg (fun regs => regs[r.val]) (State.accumulateHalf_regs _ p)
    refine ⟨_, hexec, fun hcpu => ?sh2, fun hcpu => ?sh1, ?regN, ?regM, hworks.finished⟩
    case sh2 => exact State.accumulateHalf_sh2 (s := s.macRegs m n 2) hcpu p
    case sh1 => exact State.accumulateHalf_sh1 (s := s.macRegs m n 2) hcpu p
    case regN => exact (hregs n).trans (s.macRegs_reg_n m n 2)
    case regM => exact (hregs m).trans (s.macRegs_reg_m m n 2)

theorem macwSetsFlag_iff (c : Config) : macwSetsFlag c = true ↔ c.cpu = .sh1 ∨ c.macwSatFlagSh2 = true := by
  unfold macwSetsFlag
  cases c.cpu <;> simp

theorem overflows32_iff (i : Int) : overflows32 i = true ↔ i < -2 ^ 31 ∨ 2 ^ 31 - 1 < i := by
  simp only [overflows32, Bool.or_eq_true, decide_eq_true_iff]
  exact Or.comm

/-- Settles O20: the flag is set when the sum overflows and the CPU, or the parameter of D24, says so. -/
theorem macWordSaturating : Obligations.MacWordSaturating := by
  intro s m n hs hn hm sum overflow
  have hexec := exec_macW_of_can hn hm
  rw [hs, if_pos rfl] at hexec
  have hworks := (s.works_macRegs m n 2).accumulateHalfSaturating rfl rfl
    ((s.loaded 2 (s.reg n)).toInt * (s.loaded 2 (s.macSecond m n 2)).toInt)
  have hflag : (overflows32 sum && macwSetsFlag s.cfg) = true ↔
      overflow ∧ (s.cfg.cpu = .sh1 ∨ s.cfg.macwSatFlagSh2 = true) := by
    rw [Bool.and_eq_true, overflows32_iff, macwSetsFlag_iff]
  refine ⟨_, hexec, ?macl, fun hset => ?flagged, fun hset => ?kept, s.macRegs_reg_n m n 2, s.macRegs_reg_m m n 2,
    hworks.finished⟩
  case macl => exact toInt_ofInt_clamp (by decide) (by decide) (by decide) (by decide) sum
  case flagged => exact if_pos (hflag.mpr hset)
  case kept => exact if_neg fun h => hset (hflag.mp h)

end Sys2Proof.Machine
end

section
/-! PROOF. The instructions that load, store and branch, one by one (spec/40_data_transfer.md, spec/45_branch.md,
spec/46_system_control.md).  For each kind of access one lemma says what an instruction of that kind does when the
access may be made; a misaligned one is read off the course of every instruction. -/
namespace Sys2Proof.Machine

/-! ### Loads -/

/-- An instruction that every CPU has and that does not rewrite the PC runs its own course everywhere. -/
theorem legal_of_plain {i : Instr} (hcpu : i.sh2Only = false) (hpc : rewritesPc i = false) (s : State) : legal i s := by
  refine ⟨?_, fun h => absurd (hpc.symm.trans h) (by decide)⟩
  cases s.cfg.cpu with
  | sh1 =>
    change (!i.sh2Only) = true
    rw [hcpu, Bool.not_false]
  | sh2 => rfl

theorem loads_of_loadByte {i : Instr} {s : State} {a : Word} {n : Reg} (h : exec i s = s.loadByte a n) :
    Loads i s 1 a n :=
  fun hcan => writesReg_of_exec (h.trans (State.loadByte_ok n (State.readByte_of_can hcan)))

theorem loads_of_loadHalf {i : Instr} {s : State} {a : Word} {n : Reg} (h : exec i s = s.loadHalf a n) :
    Loads i s 2 a n :=
  fun hcan => writesReg_of_exec (h.trans (State.loadHalf_ok n (State.readHalf_of_can hcan)))

theorem loads_of_loadLong {i : Instr} {s : State} {a : Word} {n : Reg} (h : exec i s = s.loadLong a n) :
    Loads i s 4 a n :=
  fun hcan => writesReg_of_exec (h.trans (State.loadLong_ok n (State.readLong_of_can hcan)))

/-- The sum of the masked PC and four times the displacement is a multiple of four. -/
theorem alignedLong_masked (x y : Word) : alignedLong ((x &&& 0xFFFFFFFC) + y * 4) = true := by
  have hmask : (x &&& 0xFFFFFFFC).toNat % 4 = 0 := by
    rw [BitVec.toNat_and, show 4 = 2 ^ 2 from rfl, Nat.and_mod_two_pow]
    exact Nat.and_zero _
  have hsum : ((x &&& 0xFFFFFFFC) + y * 4).toNat % 4 = 0 := by
    rw [BitVec.toNat_add, BitVec.toNat_mul, show (4 : Word).toNat = 4 from rfl]
    omega
  rw [alignedLong, hsum]
  rfl

/-- Settles O2: the base is the PC operand of the model; MOVA writes the address that MOV.L reads from. -/
theorem pcRelativeForms : Obligations.PcRelativeForms := by
  refine ⟨fun s disp n => ⟨?word, ?wordTrap, ?long, ?aligned, ?mova⟩, fun n d8 => ⟨?wordCode, ?longCode, ?movaCode⟩⟩
  case word => exact loads_of_loadHalf rfl
  case wordTrap => exact misalignedTraps_of_access (legal_of_plain rfl rfl s) rfl
  case long => exact loads_of_loadLong rfl
  case aligned => exact alignedLong_masked _ _
  case mova => exact writesReg_of_exec rfl
  case wordCode => exact hasCode_of_encodeWord (code_field8 0x9 n.toField d8)
  case longCode => exact hasCode_of_encodeWord (code_field8 0xD n.toField d8)
  case movaCode => exact hasCode_of_encodeWord (code_field8 0xC 0x7 d8)

/-- Settles O3: each form is the shared load of its size. -/
theorem indirectLoads : Obligations.IndirectLoads := by
  refine ⟨fun s m n => ⟨?byte, ?word, ?wordTrap, ?long, ?longTrap⟩, fun m n => ⟨?byteCode, ?wordCode, ?longCode⟩⟩
  case byte => exact loads_of_loadByte rfl
  case word => exact loads_of_loadHalf rfl
  case long => exact loads_of_loadLong rfl
  case wordTrap | longTrap => exact misalignedTraps_of_access (legal_of_plain rfl rfl s) rfl
  case byteCode | wordCode | longCode => exact hasCode_of_encodeWord rfl

/-- A byte displacement is not scaled. -/
theorem State.eaDisp_one (s : State) (n : Reg) (disp : BitVec 4) : s.eaDisp n disp 1 = s.reg n + disp.setWidth 32 :=
  congrArg (s.reg n + ·) (BitVec.mul_one _)

theorem State.eaGbrDisp_one (s : State) (disp : BitVec 8) : s.eaGbrDisp disp 1 = s.gbr + disp.setWidth 32 :=
  congrArg (s.gbr + ·) (BitVec.mul_one _)

/-- Settles O4: each form is the shared load of its size at its own address. -/
theorem displacedIndexedGbrLoads : Obligations.DisplacedIndexedGbrLoads := by
  refine ⟨fun s m n disp disp8 => ⟨?bDisp, ?wDisp, ?wDispTrap, ?lDisp, ?lDispTrap, ?bIdx, ?wIdx, ?wIdxTrap, ?lIdx,
      ?lIdxTrap, ?bGbr, ?wGbr, ?wGbrTrap, ?lGbr, ?lGbrTrap⟩,
    fun m n d4 d8 => ⟨?bDispCode, ?wDispCode, ?lDispCode, ?bIdxCode, ?wIdxCode, ?lIdxCode, ?bGbrCode, ?wGbrCode,
      ?lGbrCode⟩⟩
  case bDisp => exact loads_of_loadByte (congrArg (s.loadByte · 0) (s.eaDisp_one m disp))
  case wDisp => exact loads_of_loadHalf rfl
  case lDisp => exact loads_of_loadLong rfl
  case bIdx => exact loads_of_loadByte rfl
  case wIdx => exact loads_of_loadHalf rfl
  case lIdx => exact loads_of_loadLong rfl
  case bGbr => exact loads_of_loadByte (congrArg (s.loadByte · 0) (s.eaGbrDisp_one disp8))
  case wGbr => exact loads_of_loadHalf rfl
  case lGbr => exact loads_of_loadLong rfl
  case wDispTrap | lDispTrap | wIdxTrap | lIdxTrap | wGbrTrap | lGbrTrap =>
    exact misalignedTraps_of_access (legal_of_plain rfl rfl s) rfl
  case bDispCode | wDispCode | lDispCode | bIdxCode | wIdxCode | lIdxCode => exact hasCode_of_encodeWord rfl
  case bGbrCode => exact hasCode_of_encodeWord (code_field8 0xC 0x4 d8)
  case wGbrCode => exact hasCode_of_encodeWord (code_field8 0xC 0x5 d8)
  case lGbrCode => exact hasCode_of_encodeWord (code_field8 0xC 0x6 d8)

/-! ### Loads with post-increment -/

/-- The loaded value is written last, so it wins when both registers are the same (R133). -/
theorem loadsInc_of_exec {i : Instr} {s : State} {m n : Reg} {bytes : Nat}
    (h : s.can .read bytes (s.reg m) →
      exec i s = .next (s.loadedInc m n (BitVec.ofNat 32 bytes) (s.loaded bytes (s.reg m))).finish) :
    LoadsInc i s bytes m n := by
  intro hcan
  have hworks : Works { regs := [m, n] } [] s
      (s.loadedInc m n (BitVec.ofNat 32 bytes) (s.loaded bytes (s.reg m))) :=
    ((Works.refl _ s).setReg (.head _) _).setReg (.tail _ (.head _)) _
  exact ⟨_, h hcan, State.setReg_reg_same _ n _,
    fun hne => (State.setReg_reg_ne _ _ hne).trans (State.setReg_reg_same s m _), hworks.finished⟩

theorem exec_movBLoadInc {s : State} {m n : Reg} (hcan : s.can .read 1 (s.reg m)) :
    exec (.movBLoadInc m n) s = .next (s.loadedInc m n 1 (s.loaded 1 (s.reg m))).finish := by
  change execMovBLoadInc m n s = _
  rw [execMovBLoadInc, State.readByte_of_can hcan]
  rfl

theorem exec_movWLoadInc {s : State} {m n : Reg} (hcan : s.can .read 2 (s.reg m)) :
    exec (.movWLoadInc m n) s = .next (s.loadedInc m n 2 (s.loaded 2 (s.reg m))).finish := by
  change execMovWLoadInc m n s = _
  rw [execMovWLoadInc, State.readHalf_of_can hcan]
  rfl

theorem exec_movLLoadInc {s : State} {m n : Reg} (hcan : s.can .read 4 (s.reg m)) :
    exec (.movLLoadInc m n) s = .next (s.loadedInc m n 4 (s.loaded 4 (s.reg m))).finish := by
  change execMovLLoadInc m n s = _
  rw [execMovLLoadInc, State.readLong_of_can hcan]
  rfl

/-- Settles O5: the increment comes before the load is written, so that m = n keeps the loaded value. -/
theorem postIncrementLoads : Obligations.PostIncrementLoads := by
  refine ⟨fun s m n => ⟨?byte, ?word, ?wordTrap, ?long, ?longTrap⟩, fun m n => ⟨?byteCode, ?wordCode, ?longCode⟩⟩
  case byte => exact loadsInc_of_exec exec_movBLoadInc
  case word => exact loadsInc_of_exec exec_movWLoadInc
  case long => exact loadsInc_of_exec exec_movLLoadInc
  case wordTrap | longTrap => exact misalignedTraps_of_access (legal_of_plain rfl rfl s) rfl
  case byteCode | wordCode | longCode => exact hasCode_of_encodeWord rfl

/-! ### Stores -/

theorem stores_of_storeByte {i : Instr} {s : State} {a v : Word} (h : exec i s = s.storeByte a v) :
    Stores i s 1 a v := by
  intro hcan
  have hworks := (Works.refl { mem := [(a, 1)] } s).storedByte (.head _) (lowByte v)
  exact ⟨_, h.trans (State.storeByte_ok (State.writeByte_of_can hcan _)), Memory.byte_setByte_same _ a _,
    hworks.finished⟩

theorem stores_of_storeHalf {i : Instr} {s : State} {a v : Word} (h : exec i s = s.storeHalf a v) :
    Stores i s 2 a v := by
  intro hcan
  have hworks := (Works.refl { mem := [(a, 2)] } s).storedHalf (.head _) (littleEndian s.cfg a) (lowHalf v)
  exact ⟨_, h.trans (State.storeHalf_ok (State.writeHalf_of_can hcan _)), Memory.half_setHalf_same _ _ a _,
    hworks.finished⟩

theorem stores_of_storeLong {i : Instr} {s : State} {a v : Word} (h : exec i s = s.storeLong a v) :
    Stores i s 4 a v := by
  intro hcan
  have hworks := (Works.refl { mem := [(a, 4)] } s).storedLong (.head _) (littleEndian s.cfg a) v
  exact ⟨_, h.trans (State.storeLong_ok (State.writeLong_of_can hcan _)), Memory.long_setLong_same _ _ a v,
    hworks.finished⟩

/-- Settles O6: each form is the shared store of its size. -/
theorem indirectStores : Obligations.IndirectStores := by
  refine ⟨fun s m n => ⟨?byte, ?word, ?wordTrap, ?long, ?longTrap⟩, fun m n => ⟨?byteCode, ?wordCode, ?longCode⟩⟩
  case byte => exact stores_of_storeByte rfl
  case word => exact stores_of_storeHalf rfl
  case long => exact stores_of_storeLong rfl
  case wordTrap | longTrap => exact misalignedTraps_of_access (legal_of_plain rfl rfl s) rfl
  case byteCode | wordCode | longCode => exact hasCode_of_encodeWord rfl

/-- Settles O7: each form is the shared store of its size at its own address. -/
theorem displacedIndexedGbrStores : Obligations.DisplacedIndexedGbrStores := by
  refine ⟨fun s m n disp disp8 => ⟨?bDisp, ?wDisp, ?wDispTrap, ?lDisp, ?lDispTrap, ?bIdx, ?wIdx, ?wIdxTrap, ?lIdx,
      ?lIdxTrap, ?bGbr, ?wGbr, ?wGbrTrap, ?lGbr, ?lGbrTrap⟩,
    fun m n d4 d8 => ⟨?bDispCode, ?wDispCode, ?lDispCode, ?bIdxCode, ?wIdxCode, ?lIdxCode, ?bGbrCode, ?wGbrCode,
      ?lGbrCode⟩⟩
  case bDisp => exact stores_of_storeByte (congrArg (s.storeByte · (s.reg 0)) (s.eaDisp_one n disp))
  case wDisp => exact stores_of_storeHalf rfl
  case lDisp => exact stores_of_storeLong rfl
  case bIdx => exact stores_of_storeByte rfl
  case wIdx => exact stores_of_storeHalf rfl
  case lIdx => exact stores_of_storeLong rfl
  case bGbr => exact stores_of_storeByte (congrArg (s.storeByte · (s.reg 0)) (s.eaGbrDisp_one disp8))
  case wGbr => exact stores_of_storeHalf rfl
  case lGbr => exact stores_of_storeLong rfl
  case wDispTrap | lDispTrap | wIdxTrap | lIdxTrap | wGbrTrap | lGbrTrap =>
    exact misalignedTraps_of_access (legal_of_plain rfl rfl s) rfl
  case bDispCode | wDispCode | lDispCode | bIdxCode | wIdxCode | lIdxCode => exact hasCode_of_encodeWord rfl
  case bGbrCode => exact hasCode_of_encodeWord (code_field8 0xC 0x0 d8)
  case wGbrCode => exact hasCode_of_encodeWord (code_field8 0xC 0x1 d8)
  case lGbrCode => exact hasCode_of_encodeWord (code_field8 0xC 0x2 d8)

/-! ### Stores with pre-decrement -/

/-- The value stored is that of Rm before the address register goes down, also for m = n (R129). -/
theorem storesDec_byte (s : State) (m n : Reg) : StoresDec (.movBStoreDec m n) s 1 m n := by
  intro (hcan : s.can .write 1 (s.reg n - 1))
  have hexec : exec (.movBStoreDec m n) s = .next ((s.stored (s.reg n - 1) 1
      (s.mem.setByte (s.reg n - 1) (lowByte (s.reg m)))).setReg n (s.reg n - 1)).finish := by
    change execMovBStoreDec m n s = _
    rw [execMovBStoreDec, State.writeByte_of_can hcan]
    rfl
  have hworks := ((Works.refl { regs := [n], mem := [(s.reg n - 1, 1)] } s).storedByte (.head _)
    (lowByte (s.reg m))).setReg (.head _) (s.reg n - 1)
  exact ⟨_, hexec, Memory.byte_setByte_same _ _ _, State.setReg_reg_same _ n _, hworks.finished⟩

theorem storesDec_half (s : State) (m n : Reg) : StoresDec (.movWStoreDec m n) s 2 m n := by
  intro (hcan : s.can .write 2 (s.reg n - 2))
  have hexec : exec (.movWStoreDec m n) s = .next ((s.stored (s.reg n - 2) 2 (s.mem.setHalf
      (littleEndian s.cfg (s.reg n - 2)) (s.reg n - 2) (lowHalf (s.reg m)))).setReg n (s.reg n - 2)).finish := by
    change execMovWStoreDec m n s = _
    rw [execMovWStoreDec, State.writeHalf_of_can hcan]
    rfl
  have hworks := ((Works.refl { regs := [n], mem := [(s.reg n - 2, 2)] } s).storedHalf (.head _)
    (littleEndian s.cfg (s.reg n - 2)) (lowHalf (s.reg m))).setReg (.head _) (s.reg n - 2)
  exact ⟨_, hexec, Memory.half_setHalf_same _ _ _ _, State.setReg_reg_same _ n _, hworks.finished⟩

/-- A longword stored below the address in Rn, Rn then going down: what MOV.L, STC.L and STS.L have in common. -/
theorem State.works_storedDec (s : State) (n : Reg) (v : Word) :
    Works { regs := [n], mem := [(s.reg n - 4, 4)] } [⟨s.reg n - 4, 4, 3⟩] s
      ((s.stored (s.reg n - 4) 4 (s.mem.setLong (littleEndian s.cfg (s.reg n - 4)) (s.reg n - 4) v)).setReg n
        (s.reg n - 4)) :=
  ((Works.refl _ s).storedLong (.head _) _ v).setReg (.head _) _

theorem storesDec_long (s : State) (m n : Reg) : StoresDec (.movLStoreDec m n) s 4 m n := by
  intro (hcan : s.can .write 4 (s.reg n - 4))
  have hexec : exec (.movLStoreDec m n) s = .next ((s.stored (s.reg n - 4) 4 (s.mem.setLong
      (littleEndian s.cfg (s.reg n - 4)) (s.reg n - 4) (s.reg m))).setReg n (s.reg n - 4)).finish := by
    change execMovLStoreDec m n s = _
    rw [execMovLStoreDec, State.writeLong_of_can hcan]
    rfl
  exact ⟨_, hexec, Memory.long_setLong_same _ _ _ _, State.setReg_reg_same _ n _,
    (s.works_storedDec n (s.reg m)).finished⟩

/-- Settles O8: the value stored is read before Rn goes down. -/
theorem preDecrementStores : Obligations.PreDecrementStores := by
  refine ⟨fun s m n => ⟨storesDec_byte s m n, storesDec_half s m n, ?wordTrap, storesDec_long s m n, ?longTrap⟩,
    fun m n => ⟨?byteCode, ?wordCode, ?longCode⟩⟩
  case wordTrap | longTrap => exact misalignedTraps_of_access (legal_of_plain rfl rfl s) rfl
  case byteCode | wordCode | longCode => exact hasCode_of_encodeWord rfl

/-! ### TAS -/

/-- Settles O23: the byte is read, written back with bit 7 set, and T compares the byte that was read with 0. -/
theorem testAndSet : Obligations.TestAndSet := by
  refine ⟨fun s n hread hwrite => ?tas, fun n => hasCode_of_encodeWord (code_field8 0x4 n.toField 0x1B)⟩
  case tas =>
    have hexec : exec (.tasB n) s = .next ((s.stored (s.reg n) 1 (s.mem.setByte (s.reg n)
        (s.mem.byte (s.reg n) ||| 0x80))).setT (s.mem.byte (s.reg n) == 0)).finish := by
      change execTasB n s = _
      rw [execTasB, State.readByte_of_can hread, State.onAccess_ok, State.writeByte_of_can hwrite]
      rfl
    have hworks := ((Works.refl { srBits := [0], mem := [(s.reg n, 1)] } s).storedByte (.head _)
      (s.mem.byte (s.reg n) ||| 0x80)).setT (.head _) (s.mem.byte (s.reg n) == 0)
    exact ⟨_, hexec, State.setT_tBit _ _, Memory.byte_setByte_same _ _ _, hworks.finished⟩

/-! ### Control and system registers -/

/-- MACH as LDS writes it, with the two CPUs told apart as the spec does (R322). -/
theorem machStore_eq (cpu : Cpu) (v : Word) :
    machStore cpu v = if cpu = .sh1 then (v.extractLsb' 0 10).signExtend 32 else v := by
  cases cpu <;> rfl

/-- Settles O33: each form is one write of the state. -/
theorem controlLoads : Obligations.ControlLoads := by
  refine ⟨fun s m => ⟨?sr, ?gbr, ?vbr, ?mach, ?macl, ?pr⟩,
    fun m => ⟨?srCode, ?gbrCode, ?vbrCode, ?machCode, ?maclCode, ?prCode⟩⟩
  case sr => exact ⟨_, rfl, rfl, ((Works.refl _ s).setSr rfl _).finishedInhibit⟩
  case gbr => exact ⟨_, rfl, rfl, ((Works.refl _ s).setGbr rfl _).finishedInhibit⟩
  case vbr => exact ⟨_, rfl, rfl, ((Works.refl _ s).setVbr rfl _).finishedInhibit⟩
  case mach => exact ⟨_, rfl, machStore_eq _ _, ((Works.refl _ s).setMach rfl _).finishedInhibit⟩
  case macl => exact ⟨_, rfl, rfl, ((Works.refl _ s).setMacl rfl _).finishedInhibit⟩
  case pr => exact ⟨_, rfl, rfl, ((Works.refl _ s).setPr rfl _).finishedInhibit⟩
  case srCode => exact hasCode_of_encodeWord (code_field8 0x4 m.toField 0x0E)
  case gbrCode => exact hasCode_of_encodeWord (code_field8 0x4 m.toField 0x1E)
  case vbrCode => exact hasCode_of_encodeWord (code_field8 0x4 m.toField 0x2E)
  case machCode => exact hasCode_of_encodeWord (code_field8 0x4 m.toField 0x0A)
  case maclCode => exact hasCode_of_encodeWord (code_field8 0x4 m.toField 0x1A)
  case prCode => exact hasCode_of_encodeWord (code_field8 0x4 m.toField 0x2A)

/-- A load of a control or system register from the stack, for any register: `put` writes it, and `holds` says what
it holds then. -/
theorem popsInto_of_popControl {i : Instr} {s : State} {m : Reg} {w : Writes} {put : State → Word → State}
    {holds : State → Word → Prop} (h : exec i s = s.popControl m put)
    (hworks : ∀ v, Works { w with regs := [m] } [] s (put s v))
    (hholds : ∀ v r, holds ((put s v).setReg m r).finishInhibit v) : PopsInto i s m w holds := by
  intro hcan
  exact ⟨_, h.trans (State.popControl_ok put (State.readLong_of_can hcan)), hholds _ _, State.setReg_reg_same _ m _,
    ((hworks _).setReg (.head _) _).finishedInhibit⟩

/-- Settles O34: six uses of the shared pop. -/
theorem controlLoadsFromMemory : Obligations.ControlLoadsFromMemory := by
  refine ⟨fun s m => ⟨⟨?sr, ?srTrap⟩, ⟨?gbr, ?gbrTrap⟩, ⟨?vbr, ?vbrTrap⟩, ⟨?mach, ?machTrap⟩, ⟨?macl, ?maclTrap⟩,
      ⟨?pr, ?prTrap⟩⟩,
    fun m => ⟨?srCode, ?gbrCode, ?vbrCode, ?machCode, ?maclCode, ?prCode⟩⟩
  case sr => exact popsInto_of_popControl rfl (fun v => (Works.refl _ s).setSr rfl v) fun _ _ => rfl
  case gbr => exact popsInto_of_popControl rfl (fun v => (Works.refl _ s).setGbr rfl v) fun _ _ => rfl
  case vbr => exact popsInto_of_popControl rfl (fun v => (Works.refl _ s).setVbr rfl v) fun _ _ => rfl
  case mach => exact popsInto_of_popControl rfl (fun v => (Works.refl _ s).setMach rfl v) fun _ _ => machStore_eq _ _
  case macl => exact popsInto_of_popControl rfl (fun v => (Works.refl _ s).setMacl rfl v) fun _ _ => rfl
  case pr => exact popsInto_of_popControl rfl (fun v => (Works.refl _ s).setPr rfl v) fun _ _ => rfl
  case srTrap | gbrTrap | vbrTrap | machTrap | maclTrap | prTrap =>
    exact misalignedTraps_of_access (legal_of_plain rfl rfl s) rfl
  case srCode => exact hasCode_of_encodeWord (code_field8 0x4 m.toField 0x07)
  case gbrCode => exact hasCode_of_encodeWord (code_field8 0x4 m.toField 0x17)
  case vbrCode => exact hasCode_of_encodeWord (code_field8 0x4 m.toField 0x27)
  case machCode => exact hasCode_of_encodeWord (code_field8 0x4 m.toField 0x06)
  case maclCode => exact hasCode_of_encodeWord (code_field8 0x4 m.toField 0x16)
  case prCode => exact hasCode_of_encodeWord (code_field8 0x4 m.toField 0x26)

theorem pushesFrom_of_pushControl {i : Instr} {s : State} {n : Reg} {v : Word} (h : exec i s = s.pushControl n v) :
    PushesFrom i s n v := by
  intro hcan
  exact ⟨_, h.trans (State.pushControl_ok (State.writeLong_of_can hcan v)), Memory.long_setLong_same _ _ _ _,
    State.setReg_reg_same _ n _, (s.works_storedDec n v).finishedInhibit⟩

/-- Settles O36: six uses of the shared push. -/
theorem controlStoresToMemory : Obligations.ControlStoresToMemory := by
  refine ⟨fun s n => ⟨⟨?sr, ?srTrap⟩, ⟨?gbr, ?gbrTrap⟩, ⟨?vbr, ?vbrTrap⟩, ⟨?mach, ?machTrap⟩, ⟨?macl, ?maclTrap⟩,
      ⟨?pr, ?prTrap⟩⟩,
    fun n => ⟨?srCode, ?gbrCode, ?vbrCode, ?machCode, ?maclCode, ?prCode⟩⟩
  case sr | gbr | vbr | mach | macl | pr => exact pushesFrom_of_pushControl rfl
  case srTrap | gbrTrap | vbrTrap | machTrap | maclTrap | prTrap =>
    exact misalignedTraps_of_access (legal_of_plain rfl rfl s) rfl
  case srCode => exact hasCode_of_encodeWord (code_field8 0x4 n.toField 0x03)
  case gbrCode => exact hasCode_of_encodeWord (code_field8 0x4 n.toField 0x13)
  case vbrCode => exact hasCode_of_encodeWord (code_field8 0x4 n.toField 0x23)
  case machCode => exact hasCode_of_encodeWord (code_field8 0x4 n.toField 0x02)
  case maclCode => exact hasCode_of_encodeWord (code_field8 0x4 n.toField 0x12)
  case prCode => exact hasCode_of_encodeWord (code_field8 0x4 n.toField 0x22)

/-- Settles O38: SLEEP is `finish` with the CPU put to sleep. -/
theorem sleepInstruction : Obligations.SleepInstruction := by
  refine ⟨fun s => ⟨_, rfl, rfl, rfl, rfl, rfl, ?pc, { Frame.refl {} s with }⟩, hasCode_of_encodeWord rfl⟩
  case pc => exact (ends_finish (s := s) (t := s) rfl rfl rfl).pc

/-! ### Branches -/

/-- Settles O37: the two longwords are popped, SR is loaded with the second, and the first is the destination. -/
theorem returnFromException : Obligations.ReturnFromException := by
  refine ⟨fun s hslot => ⟨fun hpc hsr => ?rte, ?trap⟩, hasCode_of_encodeWord rfl⟩
  case rte =>
    obtain ⟨hends, hframe⟩ := (((Works.refl { regs := [15], srBits := List.range 32 } s).setReg (.head _)
      (s.reg 15 + 8)).setSr rfl (s.loaded 4 (s.reg 15 + 4))).delayed (some (s.loaded 4 (s.reg 15)))
    exact ⟨_, exec_rte hslot hpc hsr, rfl, State.setReg_reg_same s 15 _, hframe, hends⟩
  case trap =>
    have hwf : Instr.rte.wellFormed s.cfg.cpu = true := by cases s.cfg.cpu <;> rfl
    exact misalignedTraps_of_access ⟨hwf, fun _ => hslot⟩ rfl

theorem State.nextPc_outside (s : State) (hslot : s.delayTarget = none) : s.nextPc = s.pc + 2 := by
  rw [State.nextPc, hslot]

/-- Settles O26: the two branches are each other's mirror in T. -/
theorem conditionalBranches : Obligations.ConditionalBranches := by
  refine ⟨fun s disp hslot => ⟨?bf, ?bt⟩, fun d8 => ⟨?bfCode, ?btCode⟩⟩
  case bf =>
    refine ⟨_, State.outsideSlot_none hslot _, ?_⟩
    cases s.tBit with
    | true => exact ⟨s.nextPc_outside hslot, rfl, rfl, rfl, rfl, (Frame.refl _ s).finish⟩
    | false => exact ⟨rfl, rfl, rfl, rfl, rfl, { Frame.refl {} s with }⟩
  case bt =>
    refine ⟨_, State.outsideSlot_none hslot _, ?_⟩
    cases s.tBit with
    | true => exact ⟨rfl, rfl, rfl, rfl, rfl, { Frame.refl {} s with }⟩
    | false => exact ⟨s.nextPc_outside hslot, rfl, rfl, rfl, rfl, (Frame.refl _ s).finish⟩
  case bfCode => exact hasCode_of_encodeWord (code_field8 0x8 0xB d8)
  case btCode => exact hasCode_of_encodeWord (code_field8 0x8 0x9 d8)

/-- The two ways of saying what a BF/S or BT/S leaves pending agree: the destination when it branches, otherwise what
`bcs_slot_check_always` asks for (R288). -/
theorem State.conditionalTarget_eq (s : State) (taken : Bool) (disp : BitVec 8) :
    s.conditionalTarget taken disp =
      if taken then some (s.pc + 4 + disp.signExtend 32 * 2)
      else if s.cfg.bcsSlotCheckAlways then some (s.pc + 4) else none := by
  unfold State.conditionalTarget
  cases taken <;> cases s.cfg.bcsSlotCheckAlways <;> rfl

/-- How BF/S and BT/S end, with `taken` for the condition of either. -/
theorem State.endsInSlot_delayedConditional (s : State) (taken : Bool) (disp : BitVec 8) :
    EndsInSlot s (s.delayedConditional taken disp)
      (if taken then some (s.pc + 4 + disp.signExtend 32 * 2)
        else if s.cfg.bcsSlotCheckAlways then some (s.pc + 4) else none)
      (!taken && s.cfg.bcsSlotCheckAlways) ∧
    Frame {} s (s.delayedConditional taken disp) :=
  ⟨{ pc := rfl, delayTarget := s.conditionalTarget_eq taken disp, slotAfterUntaken := rfl, intInhibit := rfl,
      power := rfl },
    { Frame.refl {} s with }⟩

/-- Settles O27: BF/S is BT/S with T turned round. -/
theorem delayedConditionalBranches : Obligations.DelayedConditionalBranches := by
  refine ⟨fun s disp hcpu hslot => ⟨?bfS, ?btS⟩, fun d8 => ⟨?bfSCode, ?btSCode⟩⟩
  case bfS =>
    refine ⟨_, (State.onSh2_sh2 hcpu _).trans (State.outsideSlot_none hslot _), ?_⟩
    have h := s.endsInSlot_delayedConditional (!s.tBit) disp
    cases ht : s.tBit <;> rw [ht] at h <;> exact h
  case btS =>
    exact ⟨_, (State.onSh2_sh2 hcpu _).trans (State.outsideSlot_none hslot _),
      s.endsInSlot_delayedConditional s.tBit disp⟩
  case bfSCode => exact hasCode_of_encodeWord (code_field8 0x8 0xF d8)
  case btSCode => exact hasCode_of_encodeWord (code_field8 0x8 0xD d8)

/-- A code with a 12-bit field, written as three digits or as a whole. -/
theorem code_field12 (a : BitVec 4) (v : BitVec 12) :
    code a (v.extractLsb' 8 4) (v.extractLsb' 4 4) (v.extractLsb' 0 4) = a ++ v := by
  have hassoc : ∀ b c d : BitVec 4, code a b c d = a ++ (b ++ c ++ d : BitVec 12) := fun b c d => by
    rw [code, BitVec.append_assoc, BitVec.append_assoc, BitVec.append_assoc]
    rfl
  rw [hassoc, field12_digits]

/-- Settles O28: outside a slot each of them only leaves its destination pending. -/
theorem unconditionalBranches : Obligations.UnconditionalBranches := by
  refine ⟨fun s m disp hslot => ⟨?bra, fun hcpu => ?braf, ?jmp, ?rts⟩, fun m d12 => ⟨?braCode, ?brafCode, ?jmpCode,
    ?rtsCode⟩⟩
  case bra | jmp | rts => exact ⟨_, State.outsideSlot_none hslot _, (Works.refl {} s).delayed _⟩
  case braf =>
    exact ⟨_, (State.onSh2_sh2 hcpu _).trans (State.outsideSlot_none hslot _), (Works.refl {} s).delayed _⟩
  case braCode => exact hasCode_of_encodeWord (code_field12 0xA d12)
  case brafCode => exact hasCode_of_encodeWord (code_field8 0x0 m.toField 0x23)
  case jmpCode => exact hasCode_of_encodeWord (code_field8 0x4 m.toField 0x2B)
  case rtsCode => exact hasCode_of_encodeWord rfl

/-- Settles O29: PR is written before the branch and holds the address behind the slot. -/
theorem subroutineCalls : Obligations.SubroutineCalls := by
  refine ⟨fun s m disp hslot => ⟨?bsr, fun hcpu => ?bsrf, ?jsr⟩, fun m d12 => ⟨?bsrCode, ?bsrfCode, ?jsrCode⟩⟩
  case bsr | jsr =>
    exact ⟨_, State.outsideSlot_none hslot _, rfl, ((Works.refl { pr := true } s).setPr rfl _).delayed _⟩
  case bsrf =>
    exact ⟨_, (State.onSh2_sh2 hcpu _).trans (State.outsideSlot_none hslot _), rfl,
      ((Works.refl { pr := true } s).setPr rfl _).delayed _⟩
  case bsrCode => exact hasCode_of_encodeWord (code_field12 0xB d12)
  case bsrfCode => exact hasCode_of_encodeWord (code_field8 0x0 m.toField 0x03)
  case jsrCode => exact hasCode_of_encodeWord (code_field8 0x4 m.toField 0x0B)

end Sys2Proof.Machine
end

section
/-! PROOF. The step: resets, interrupts, fetches (spec/60_exceptions.md section 4, spec/70_reset_and_hazards.md).  First
which request is the best one and when there is none; then what acceptance and a boundary passed over leave. -/
namespace Sys2Proof.Machine

/-! ### The best request -/

/-- Only an empty list has no best request. -/
theorem eq_nil_of_highest_none {l : List IntRequest} (h : highest l = none) : l = [] := by
  cases l with
  | nil => rfl
  | cons p rest =>
    rw [highest] at h
    cases hrest : highest rest with
    | none => rw [hrest] at h; cases h
    | some r =>
      simp only [hrest] at h
      split at h <;> cases h

/-- The request of the highest level is one of the list, and none of the list has a higher one. -/
theorem highest_some {l : List IntRequest} {q : IntRequest} (h : highest l = some q) :
    q ∈ l ∧ ∀ r ∈ l, r.level.val ≤ q.level.val := by
  induction l generalizing q with
  | nil => cases h
  | cons p rest ih =>
    rw [highest] at h
    cases hrest : highest rest with
    | none =>
      rw [hrest] at h
      cases h
      simp [eq_nil_of_highest_none hrest]
    | some r =>
      obtain ⟨hr, hmax⟩ := ih hrest
      simp only [hrest] at h
      split at h
      · next hlt =>
        cases h
        exact ⟨List.mem_cons_of_mem p hr, List.forall_mem_cons.mpr ⟨Nat.le_of_lt hlt, hmax⟩⟩
      · next hge =>
        cases h
        exact ⟨List.mem_cons_self,
          List.forall_mem_cons.mpr ⟨Nat.le_refl _, fun r' hr' => (hmax r' hr').trans (Nat.le_of_not_lt hge)⟩⟩

theorem State.acceptable_iff {s : State} {q : IntRequest} :
    s.acceptable q = true ↔ s.intInhibit = false ∧ s.delayTarget = none ∧
      (q.level.val = 16 ∨ q.level.val > s.imask.toNat) := by
  simp [State.acceptable, and_assoc]

theorem State.mem_acceptableRequests {s : State} {q : IntRequest} :
    q ∈ s.acceptableRequests ↔ q ∈ s.pending ∧ s.acceptable q = true := List.mem_filter

/-- Inhibited, with a branch pending, or with every offered request masked, none is acceptable (R374). -/
theorem State.acceptableRequests_eq_nil {s : State}
    (h : s.intInhibit = true ∨ s.delayTarget ≠ none ∨ ∀ q ∈ s.pending, q.level.val ≠ 16 ∧ q.level.val ≤ s.imask.toNat) :
    s.acceptableRequests = [] := by
  refine List.filter_eq_nil_iff.mpr fun q hq hacc => ?_
  obtain ⟨hinhibit, hslot, hlevel⟩ := State.acceptable_iff.mp hacc
  rcases h with h | h | h
  · cases h.symm.trans hinhibit
  · exact h hslot
  · obtain ⟨hnmi, hmasked⟩ := h q hq
    omega

theorem waitOf_map (l : List IntRequest) (f : IntRequest → Nat) (q : IntRequest) :
    waitOf (l.map fun r => (r, f r)) q = if q ∈ l then f q else 0 := by
  induction l with
  | nil => rfl
  | cons r rest ih =>
    rw [List.map_cons, waitOf]
    by_cases h : r = q
    · simp [h]
    · simp [h, ih, Ne.symm h]

theorem State.waits_passBoundary {s : State} {q : IntRequest} (hq : q ∈ s.pending) :
    waitOf s.passBoundary.waits q = if s.acceptable q then waitOf s.waits q + 1 else 0 := by
  refine (waitOf_map s.acceptableRequests (fun r => waitOf s.waits r + 1) q).trans ?_
  simp only [State.mem_acceptableRequests, hq, true_and]

/-! ### Acceptance -/

/-- Asleep, by the schedule, or after a wait as long as can be, the step accepts the best request (R375). -/
theorem step_accepts {s : State} {q : IntRequest} (hreset : s.resetRequest = none) (hbest : s.bestRequest = some q)
    (hwhen : s.power = .sleep ∨ Config.acceptHere s.acceptedCount s.passedCount = true ∨
      ∃ r ∈ s.pending, s.acceptable r = true ∧ Config.acceptDelay s.acceptedCount ≤ waitOf s.waits r) :
    step s = s.acceptInterrupt q := by
  rw [step, hreset]
  cases hpower : s.power with
  | sleep => simp only [State.sleepStep, hbest]
  | run =>
    have hdue := hwhen.resolve_left (by rw [hpower]; decide)
    have hnow : s.acceptedNow = some q :=
      State.acceptedNow_some.mpr ⟨hbest, hdue.imp_right State.acceptanceDue_iff.mpr⟩
    simp only [hnow]

theorem maskLevel_toNat (l : Fin 17) : (maskLevel l).toNat = min l.val 15 := by
  revert l
  decide

/-- Settles O43: the best request is the acceptable one of the highest level; reporting it touches the platform's side
only, and what follows is exception entry with the level as the new mask. -/
theorem interruptAcceptance : Obligations.InterruptAcceptance := by
  refine ⟨fun s q hreset hbest hwhen hcan => ?accepted, fun s q hq => State.waits_passBoundary hq⟩
  case accepted =>
    obtain ⟨hq, hmax⟩ := highest_some hbest
    obtain ⟨hpending, hacc⟩ := State.mem_acceptableRequests.mp hq
    obtain ⟨hinhibit, hslot, hlevel⟩ := State.acceptable_iff.mp hacc
    refine ⟨hpending, hinhibit, hslot, hlevel, fun r hr hrlevel => ?highest, ?next⟩
    case highest =>
      exact hmax r (State.mem_acceptableRequests.mpr ⟨hr, State.acceptable_iff.mpr ⟨hinhibit, hslot, hrlevel⟩⟩)
    case next =>
      have hentry : (s.reportAccepted q).exceptionEntry q.vec s.pc (some (maskLevel q.level)) =
          .next ((s.reportAccepted q).afterEntry q.vec s.pc (some (maskLevel q.level))) :=
        State.exceptionEntry_iff.mpr ⟨hcan, rfl⟩
      have hframe := (s.reportAccepted q).frame_afterEntry q.vec s.pc (some (maskLevel q.level))
      have hentered := (s.reportAccepted q).entered_afterEntry q.vec s.pc (some (maskLevel q.level))
      refine ⟨_, (step_accepts hreset hbest hwhen).trans hentry, { hentered with }, ?mask, fun r hr => ?regs,
        hframe.sr, rfl, rfl, rfl, rfl, rfl, fun b hb => ?mem, rfl, rfl, ?withdrawn, hreset, rfl⟩
      case mask => exact (congrArg BitVec.toNat (withMask_imask s.sr _)).trans (maskLevel_toNat q.level)
      case regs => exact hframe.regs r fun h => hr (List.mem_singleton.mp h)
      case mem => exact hframe.mem b fun r hr => List.mem_singleton.mp hr ▸ hb
      case withdrawn =>
        by_cases h : Config.requestWithdrawn s.acceptedCount = true
        · exact .inr (if_pos h)
        · exact .inl (if_neg h)

theorem State.bestRequest_none {s : State} (h : s.acceptableRequests = []) : s.bestRequest = none := by
  rw [State.bestRequest, h, highest]

/-- Settles O44: nothing is acceptable, so nothing is the best request; the boundary leaves an empty record of waits. -/
theorem nothingAccepted : Obligations.NothingAccepted := by
  intro s hreset hmasked
  have hnil := State.acceptableRequests_eq_nil hmasked
  have hbest := State.bestRequest_none hnil
  refine ⟨fun hrun => ?run, fun hsleep => ?sleep⟩
  case run =>
    have hnow : s.acceptedNow = none := by rw [State.acceptedNow, hbest]
    have hpass : s.passBoundary = { s with waits := [] } := by
      rw [State.passBoundary, hnil]
      rfl
    rw [step_run hreset hrun hnow, hpass]
  case sleep =>
    rw [step, hreset]
    simp only [hsleep, State.sleepStep, hbest]

/-! ### Reset -/

theorem step_reset {s : State} {k : ResetKind} (h : s.resetRequest = some k) : step s = s.takeReset k := by
  rw [step, h]

theorem reset_imask : State.reset.imask = 15 := by decide

/-- With PC and R15 to be had, a reset leaves what the statement says. -/
theorem afterReset_of_values {s : State} {k : ResetKind} {pc sp : Word} (h : s.resetValues k = some (pc, sp)) :
    ∃ t, s.takeReset k = .next t ∧ AfterReset s t pc sp :=
  ⟨_, State.takeReset_next.mpr ⟨pc, sp, h, rfl⟩,
    { pc := rfl
      sp := State.setReg_reg_same State.reset 15 sp
      imask := reset_imask
      sr := resetInvariant.sr
      vbr := rfl
      delayTarget := rfl
      intInhibit := rfl
      power := rfl
      resetRequest := rfl
      mem := rfl
      cfg := rfl }⟩

/-- Settles O45: where PC and R15 come from, and that they may be refused, is `resetValues`; the rest does not depend
on the kind of reset. -/
theorem resetStep : Obligations.ResetStep := by
  intro s k hk source a
  have hsource : resetSource s.cfg k = source := by cases k <;> rfl
  have haddr : resetVector k = a := by cases k <;> rfl
  rw [step_reset hk]
  refine ⟨fun pc sp hvalues => ?values, fun htable hpc hsp => ?table, fun htable hrefused => ?refused⟩
  case values => exact afterReset_of_values (by rw [State.resetValues, hsource, hvalues])
  case table =>
    have hlong : s.mem.long false (a + 4) =
        s.mem.byte (a + 4) ++ s.mem.byte (a + 5) ++ s.mem.byte (a + 6) ++ s.mem.byte (a + 7) := by
      simp only [Memory.long, BitVec.add_assoc]
      rfl
    rw [← hlong]
    exact afterReset_of_values (by rw [State.resetValues, hsource, htable, haddr, hpc, hsp]; rfl)
  case refused =>
    have hadmits : (memAdmits s.cfg a 4 .read && memAdmits s.cfg (a + 4) 4 .read) = false :=
      Bool.and_eq_false_iff.mpr hrefused
    rw [State.takeReset, State.resetValues, hsource, htable, haddr, hadmits]

/-- Settles O46; the reserved bits are those of the invariant after reset. -/
theorem resetState : Obligations.ResetState := by
  exact ⟨reset_imask, resetInvariant.sr, rfl, rfl, rfl, rfl⟩

/-! ### Fetch -/

theorem instructionStep_of_ok {s : State} {w : Half} {i : Instr} (hfetch : s.fetch = .code w)
    (hdecode : decodeWord s.cfg.cpu w = .ok i) : instructionStep s = exec i s.ageStores := by
  rw [instructionStep, hfetch]
  simp only [hdecode]

theorem instructionStep_of_error {s : State} {w : Half} {e : DecodeError} (hfetch : s.fetch = .code w)
    (hdecode : decodeWord s.cfg.cpu w = .error e) : instructionStep s = s.ageStores.illegalInstruction := by
  rw [instructionStep, hfetch]
  simp only [hdecode]

/-- Settles O47: the fetch gives the two bytes at the pc, most significant first. -/
theorem stepRunsDecoded : Obligations.StepRunsDecoded := by
  intro s i hreset hrun hnone hal hadm hbig hstale hdecode
  have hword : decodeWord s.cfg.cpu (s.mem.half false s.pc) = .ok i := by
    rw [decode] at hdecode
    rw [Memory.half]
    split at hdecode
    · next j hj => cases hdecode; exact hj
    · cases hdecode
  have hfetch : s.fetch = .code (s.mem.half false s.pc) :=
    (State.fetch_admitted hal hadm hbig).trans (if_neg (by rw [hstale]; decide))
  obtain ⟨-, hwf⟩ := decodeWord_ok.mp hword
  exact ⟨(step_run hreset hrun hnone).trans (instructionStep_of_ok (s := s.passBoundary) hfetch hword), hwf⟩

/-- Settles O48: the two ways in which a fetch gives no instruction. -/
theorem stepTakesFetchExceptions : Obligations.StepTakesFetchExceptions := by
  intro s hreset hrun hnone
  rw [step_run hreset hrun hnone]
  refine ⟨fun hodd => ?odd, fun w hfetch hcode => ?code⟩
  case odd =>
    have hfetch : s.fetch = .addressError := if_neg (by rw [hodd]; decide)
    rw [instructionStep, State.passBoundary_fetch, hfetch]
    rfl
  case code =>
    cases hw : decodeWord s.cfg.cpu w with
    | ok i => exact absurd hw (hcode i)
    | error e =>
      rw [instructionStep_of_error (s := s.passBoundary) hfetch hw, State.illegalInstruction]
      rfl

end Sys2Proof.Machine
end
